-- ==== Sys2Proof/Word.lean ====
section
/-! DEFINITION. The words the block handles: 8-bit bytes, 16-bit lengths and cursors (D5), 32-bit tick samples
(D8). A DMEM address is a natural number: `ADDR_W` has no upper bound (R5, D6, log 2). -/

namespace Sys2Proof

/-- A byte; bit 7 is the most significant (R7). -/
abbrev Byte := BitVec 8

/-- `LEN_W` = 16 bits: lengths, cursors, counts (R5, R22). -/
abbrev Half := BitVec 16

/-- `TICK_W` = 32 bits: the tick counter and samples of it (R47). -/
abbrev Tick := BitVec 32

end Sys2Proof
end

