-- ==== Sys2Proof/Config.lean ====
section
/-! DEFINITION. What an implementation fixes (R5, R43), the constants the source gives (R5, R168), and the free
values: drawn bytes (R8, R35) and the code of an error answer of the reference device (R226). -/

namespace Sys2Proof

/-- The open parameters of R5 that are not per port, and the reference device's `CFG_ONLY` (R224).
`N_PORTS` is the number of ports of the state. Held in the state, so that statements range over all of them (log 3). -/
structure Params where
  /-- `TX_CAP`, capacity in bytes of each transmit buffer (R5, D4). -/
  txCap : Nat
  /-- `ADDR_W`, width in bits of a DMEM address (R5, D6). -/
  addrW : Nat
  /-- `PAGE_REG` (R45, D17). -/
  pageReg : Byte
  /-- `MODE_REG` (R46, D17). -/
  modeReg : Byte
  /-- `MODE_SET`, the legal operating-mode codes (R119, D18). -/
  modeSet : List Byte
  /-- `MODE_CONFIG`, the code of CONFIG (R119, D18). -/
  modeConfig : Byte
  /-- `CFG_ONLY`, the (page, address) pairs the reference device stores to only in CONFIG (R224). -/
  cfgOnly : List (Nat × Byte)
  deriving DecidableEq, Repr

/-- What R5 asks of the parameters, with D6's lower bound of 9 on `ADDR_W`. That the two registers have different
addresses is not in R5: DEDUCED from R220 (log 3). -/
abbrev Params.legal (c : Params) : Prop :=
  5 ≤ c.txCap ∧ c.txCap < 2 ^ 16 ∧ 9 ≤ c.addrW ∧ c.pageReg ≠ c.modeReg ∧
  c.modeSet.length = 13 ∧ c.modeSet.Nodup ∧ c.modeConfig ∈ c.modeSet

/-- How many bytes an address operand of a host record has: whole bytes for `ADDR_W` bits (R113, log 1). -/
def Params.addrSize (c : Params) : Nat := (c.addrW + 7) / 8

/-- The values that spec/92_eei_decisions.md fixes for the test vectors: DESIGN CHOICE (log 3). -/
def Params.vectors : Params where
  txCap := 16
  addrW := 16
  pageReg := 0x07
  modeReg := 0x3D
  modeSet := [0x00, 0x01, 0x02, 0x03, 0x04, 0x05, 0x06, 0x07, 0x08, 0x09, 0x0A, 0x0B, 0x0C]
  modeConfig := 0x00
  cfgOnly := []

/-- `cfg[p]`, the line configuration of a port (R43, R44). Values outside the legal ones can be held; using them is
refused (R160). -/
structure LineConfig where
  /-- Bits per second. -/
  baudRate : Nat
  /-- 8 or 9. -/
  wordLength : Nat
  /-- 0 or 1. -/
  parityEnabled : Nat
  /-- The stop-bit count in half bits: 1, 2 or 4 for 1/2, 1 or 2 (log 17). -/
  stopHalves : Nat
  /-- No rule reads it (R44). -/
  priority : Nat
  deriving DecidableEq, Repr

/-- `cfg[0]` after reset: DESIGN CHOICE (log 3). Baud rate, word length, parity and stop bits are the test vectors';
the priority is in no vector, and 0 is the model's own choice, which no rule reads (R44). -/
def LineConfig.vectors : LineConfig where
  baudRate := 115200
  wordLength := 8
  parityEnabled := 0
  stopHalves := 2
  priority := 0

/-- `SYNC` (R5, R100). -/
def sync : Byte := 0xAA
/-- `OP_WRITE` (R5, R102). -/
def opWrite : Byte := 0x00
/-- `OP_READ` (R5, R101). -/
def opRead : Byte := 0x01
/-- `SENTINEL` (R5, R104). -/
def sentinel : Byte := 0xEE
/-- `WRITE_OK_MARK` (R5, R106). -/
def writeOkMark : Byte := 0x01
/-- `MAX_RETRIES` (R5, R182), in the width of `frp_attempt` (R31). -/
def maxRetries : BitVec 2 := 2
/-- `T_START_FIRST`, ticks (R168). -/
def startFirst : Nat := 10
/-- `T_START_RETRY`, ticks (R168). -/
def startRetry : Nat := 15
/-- `T_SETTLE_TO_CONFIG`, ticks (R168, R197). -/
def settleToConfig : Half := 19
/-- `T_SETTLE_FROM_CONFIG`, ticks (R168, R197). -/
def settleFromConfig : Half := 7
/-- `MARGIN_RESPONSE` (R168). -/
def marginResponse : Nat := 5
/-- The status byte of the reference device's good read answer (R223). -/
def deviceReadOk : Byte := 0xBB

/-- A drawn byte (R8 `draw`, R35, D7): nothing constrains it. The argument counts the draws made so far (log 10). -/
opaque Config.freeByte : Nat → Byte

/-- Which of the nine codes `0x02` to `0x0A` the reference device draws for an error answer (R226): nothing
constrains it (log 11). -/
opaque Config.freeErrorCode : Nat → Fin 9

end Sys2Proof
end

