-- ==== Sys2Proof/Syntax.lean ====
section
/-! DEFINITION. The operation set: one constructor for each of the 24 rows of spec/opcode_table.json (R113, R114,
R101 to R104). -/

namespace Sys2Proof

/-- The non-negative rational multiplier of COMPUTE_TIMEOUT (R160), as `num / (denPred + 1)` (log 17). -/
structure Margin where
  num : Nat
  denPred : Nat
  deriving DecidableEq, Repr

/-- The rational a `Margin` stands for. -/
def Margin.value (m : Margin) : Rat := (m.num : Rat) / ((m.denPred + 1 : Nat) : Rat)

/-- Host operations (R113), events (R114), wire command frames (R101, R102), response headers (R103, R104). -/
inductive Instr where
  /-- PORT_INIT p (R146). -/
  | portInit (p : Byte)
  /-- BEGIN_TX p, src, n (R140). -/
  | beginTx (p : Byte) (src : Nat) (n : Half)
  /-- BEGIN_RX p, dst, n (R142). -/
  | beginRx (p : Byte) (dst : Nat) (n : Half)
  /-- ABORT_RX p (R144). -/
  | abortRx (p : Byte)
  /-- TX_STATUS p (R145). -/
  | txStatus (p : Byte)
  /-- RX_STATUS p (R147). -/
  | rxStatus (p : Byte)
  /-- COMPUTE_TIMEOUT baud_rate, word_length, parity_enabled, stop_bits (in halves), payload_length, margin (R160). -/
  | computeTimeout (baudRate wordLength parityEnabled stopHalves payloadLength : Nat) (margin : Margin)
  /-- DELAY ticks (R165). -/
  | delay (ticks : Half)
  /-- READ_REG p, addr, len, out (R172). -/
  | readReg (p addr len : Byte) (out : Nat)
  /-- WRITE_REG p, addr, len, payload (R178). -/
  | writeReg (p addr len : Byte) (payload : Nat)
  /-- SELECT_PAGE p, page (R192). -/
  | selectPage (p page : Byte)
  /-- GET_MODE p (R194). -/
  | getMode (p : Byte)
  /-- SET_MODE p, mode (R196). -/
  | setMode (p mode : Byte)
  /-- ENSURE_CONFIG p (R198). -/
  | ensureConfig (p : Byte)
  /-- RESTORE_MODE p, mode (R200). -/
  | restoreMode (p mode : Byte)
  /-- SETTINGS_WRITE p, page, addr, len, payload (R202). -/
  | settingsWrite (p page addr len : Byte) (payload : Nat)
  /-- IRQ_TXE p (R150). -/
  | irqTxe (p : Byte)
  /-- IRQ_TC p (R152). -/
  | irqTc (p : Byte)
  /-- IRQ_RXNE p (R154). -/
  | irqRxne (p : Byte)
  /-- TICK (R210). -/
  | tick
  /-- RD: the read command frame `AA 01 reg len` (R101). -/
  | rd (reg len : Byte)
  /-- WR: the write command frame `AA 00 reg len payload` (R102). -/
  | wr (reg len : Byte) (payload : List Byte)
  /-- RSP: a response header whose byte 0 is not the sentinel (R103). -/
  | rsp (status length : Byte)
  /-- RSP_ERR: a response header `EE code` (R104). -/
  | rspErr (code : Byte)
  deriving DecidableEq, Repr

end Sys2Proof
end

