-- ==== Sys2Proof/WellFormed.lean ====
section
/-! DEFINITION. Which instructions an encoding exists for: operands inside the fields of the record or frame. What an
operation rejects at run time (R241) is no matter of form and is not checked here. -/

namespace Sys2Proof

/-- The operands fit the encoding with address operands of `size` bytes: addresses and COMPUTE_TIMEOUT's naturals fit
their record fields (log 1, log 17); a command frame has `len >= 1` and exactly `len` payload bytes (R100, R102); a RSP
header's byte 0 is not the sentinel (R103). -/
def Instr.wf (size : Nat) : Instr → Bool
  | .computeTimeout b w p h n m =>
      decide (b < 2 ^ 32) && decide (w < 2 ^ 8) && decide (p < 2 ^ 8) && decide (h < 2 ^ 8) &&
      decide (n < 2 ^ 32) && decide (m.num < 2 ^ 32) && decide (m.denPred < 2 ^ 32)
  | .rd _ len => decide (len ≠ 0)
  | .wr _ len payload => decide (len ≠ 0) && decide (payload.length = len.toNat)
  | .rsp status _ => decide (status ≠ sentinel)
  | .portInit _ => true
  | .beginTx _ src _ => decide (src < 256 ^ size)
  | .beginRx _ dst _ => decide (dst < 256 ^ size)
  | .abortRx _ => true
  | .txStatus _ => true
  | .rxStatus _ => true
  | .delay _ => true
  | .readReg _ _ _ out => decide (out < 256 ^ size)
  | .writeReg _ _ _ payload => decide (payload < 256 ^ size)
  | .selectPage _ _ => true
  | .getMode _ => true
  | .setMode _ _ => true
  | .ensureConfig _ => true
  | .restoreMode _ _ => true
  | .settingsWrite _ _ _ _ payload => decide (payload < 256 ^ size)
  | .irqTxe _ => true
  | .irqTc _ => true
  | .irqRxne _ => true
  | .tick => true
  | .rspErr _ => true

end Sys2Proof
end

