-- ==== Sys2Proof/Decode.lean ====
section
/-! DEFINITION. Decoding and encoding. Host and event records: a selector byte and the operands in the order of R113,
each most significant byte first (the packing is the model's, log 1). Command frames and response headers: byte by
byte as R100 to R104 give them. Decoding is total and rejects by name. -/

namespace Sys2Proof

/-- Why bytes are no instruction. -/
inductive DecodeError where
  /-- The bytes end before the record or frame does. -/
  | truncated
  /-- A selector or event code outside R113 and R114, or outside the table of its channel (R112). -/
  | unknownSelector
  /-- A frame that does not start with `0xAA` (R100). -/
  | badSync
  /-- A frame whose opcode is neither `0x00` nor `0x01` (R111). -/
  | badOpcode
  deriving DecidableEq, Repr

/-- The number that bytes stand for, the first the most significant. -/
def bytesNat : List Byte → Nat
  | [] => 0
  | b :: r => b.toNat * 256 ^ r.length + bytesNat r

/-- The `n` bytes of a number, the first the most significant. -/
def natBytes : Nat → Nat → List Byte
  | 0, _ => []
  | n + 1, x => BitVec.ofNat 8 (x / 256 ^ n) :: natBytes n x

/-- What a decoder answers: the instruction and the bytes after it. -/
abbrev Decoded := Except DecodeError (Instr × List Byte)

/-- Take one byte. -/
def takeByte (r : List Byte) (k : Byte → List Byte → Decoded) : Decoded :=
  match r with
  | b :: r => k b r
  | _ => .error .truncated

/-- Take `n` bytes, the first the most significant, as a natural. -/
def takeNat (n : Nat) (r : List Byte) (k : Nat → List Byte → Decoded) : Decoded :=
  if n ≤ r.length then k (bytesNat (r.take n)) (r.drop n) else .error .truncated

/-- Take a 16-bit operand. -/
def takeHalf (r : List Byte) (k : Half → List Byte → Decoded) : Decoded := takeNat 2 r fun n => k (BitVec.ofNat 16 n)

/-- The operands of the host operation with selector `sel` and address operands of `size` bytes (R113). -/
def decodeOperands (size : Nat) (sel : Byte) (r : List Byte) : Decoded :=
  match sel with
  | 0x00 => takeByte r fun p r => .ok (.portInit p, r)
  | 0x01 => takeByte r fun p r => takeNat size r fun a r => takeHalf r fun n r => .ok (.beginTx p a n, r)
  | 0x02 => takeByte r fun p r => takeNat size r fun a r => takeHalf r fun n r => .ok (.beginRx p a n, r)
  | 0x03 => takeByte r fun p r => .ok (.abortRx p, r)
  | 0x04 => takeByte r fun p r => .ok (.txStatus p, r)
  | 0x05 => takeByte r fun p r => .ok (.rxStatus p, r)
  | 0x06 => takeNat 4 r fun b r => takeByte r fun w r => takeByte r fun p r => takeByte r fun h r =>
      takeNat 4 r fun n r => takeNat 4 r fun num r => takeNat 4 r fun den r =>
        .ok (.computeTimeout b w.toNat p.toNat h.toNat n ⟨num, den⟩, r)
  | 0x07 => takeHalf r fun n r => .ok (.delay n, r)
  | 0x10 => takeByte r fun p r => takeByte r fun a r => takeByte r fun l r => takeNat size r fun m r =>
      .ok (.readReg p a l m, r)
  | 0x11 => takeByte r fun p r => takeByte r fun a r => takeByte r fun l r => takeNat size r fun m r =>
      .ok (.writeReg p a l m, r)
  | 0x20 => takeByte r fun p r => takeByte r fun g r => .ok (.selectPage p g, r)
  | 0x21 => takeByte r fun p r => .ok (.getMode p, r)
  | 0x22 => takeByte r fun p r => takeByte r fun m r => .ok (.setMode p m, r)
  | 0x23 => takeByte r fun p r => .ok (.ensureConfig p, r)
  | 0x24 => takeByte r fun p r => takeByte r fun m r => .ok (.restoreMode p m, r)
  | 0x25 => takeByte r fun p r => takeByte r fun g r => takeByte r fun a r => takeByte r fun l r =>
      takeNat size r fun m r => .ok (.settingsWrite p g a l m, r)
  | _ => .error .unknownSelector

/-- A host command record (R112, R113). Event codes are no host selectors: events are not issued by FG (R114). -/
def decodeHost (size : Nat) (bytes : List Byte) : Decoded :=
  match bytes with
  | sel :: r => decodeOperands size sel r
  | [] => .error .truncated

/-- An event record (R114): the code and, but for TICK, the port. -/
def decodeEvent (bytes : List Byte) : Decoded :=
  match bytes with
  | [] => .error .truncated
  | code :: r =>
    match code with
    | 0x80 => takeByte r fun p r => .ok (.irqTxe p, r)
    | 0x81 => takeByte r fun p r => .ok (.irqTc p, r)
    | 0x82 => takeByte r fun p r => .ok (.irqRxne p, r)
    | 0x83 => .ok (.tick, r)
    | _ => .error .unknownSelector

/-- A wire command frame (R100 to R102): `AA 01 reg len`, or `AA 00 reg len` and `len` payload bytes. -/
def decodeFrame (bytes : List Byte) : Decoded :=
  match bytes with
  | s :: op :: reg :: len :: r =>
    if s ≠ sync then .error .badSync
    else if op = opRead then .ok (.rd reg len, r)
    else if op = opWrite then
      if len.toNat ≤ r.length then .ok (.wr reg len (r.take len.toNat), r.drop len.toNat)
      else .error .truncated
    else .error .badOpcode
  | _ => .error .truncated

/-- A response header (R103, R104): byte 0 tells RSP_ERR from RSP. -/
def decodeResponse (bytes : List Byte) : Decoded :=
  match bytes with
  | b0 :: b1 :: r => if b0 = sentinel then .ok (.rspErr b1, r) else .ok (.rsp b0 b1, r)
  | _ => .error .truncated

/-- Is a command the device has collected a complete frame (R221): four bytes, and `len` more for a write. -/
def frameComplete (cmd : List Byte) : Bool :=
  match cmd with
  | _ :: op :: _ :: len :: r => if op = opWrite then decide (len.toNat ≤ r.length) else true
  | _ => false

/-- A 16-bit operand's bytes, most significant first. -/
def halfBytes (n : Half) : List Byte := natBytes 2 n.toNat

/-- A read command frame (R101). -/
def rdFrame (reg len : Byte) : List Byte := [sync, opRead, reg, len]

/-- A write command frame (R102). -/
def wrFrame (reg len : Byte) (payload : List Byte) : List Byte := sync :: opWrite :: reg :: len :: payload

/-- The bytes of a well-formed instruction: the record of a host operation or event (R113, R114), the frame on the
wire (R101, R102), the response header (R103, R104); address operands have `size` bytes. -/
def encode (size : Nat) : Instr → List Byte
  | .portInit p => [0x00, p]
  | .beginTx p src n => 0x01 :: p :: (natBytes size src ++ halfBytes n)
  | .beginRx p dst n => 0x02 :: p :: (natBytes size dst ++ halfBytes n)
  | .abortRx p => [0x03, p]
  | .txStatus p => [0x04, p]
  | .rxStatus p => [0x05, p]
  | .computeTimeout b w p h n m =>
      0x06 :: (natBytes 4 b ++ [BitVec.ofNat 8 w, BitVec.ofNat 8 p, BitVec.ofNat 8 h] ++
        natBytes 4 n ++ natBytes 4 m.num ++ natBytes 4 m.denPred)
  | .delay n => 0x07 :: halfBytes n
  | .readReg p addr len out => 0x10 :: p :: addr :: len :: natBytes size out
  | .writeReg p addr len payload => 0x11 :: p :: addr :: len :: natBytes size payload
  | .selectPage p page => [0x20, p, page]
  | .getMode p => [0x21, p]
  | .setMode p mode => [0x22, p, mode]
  | .ensureConfig p => [0x23, p]
  | .restoreMode p mode => [0x24, p, mode]
  | .settingsWrite p page addr len payload => 0x25 :: p :: page :: addr :: len :: natBytes size payload
  | .irqTxe p => [0x80, p]
  | .irqTc p => [0x81, p]
  | .irqRxne p => [0x82, p]
  | .tick => [0x83]
  | .rd reg len => rdFrame reg len
  | .wr reg len payload => wrFrame reg len payload
  | .rsp status length => [status, length]
  | .rspErr code => [sentinel, code]

/-- The four encodings of R113, R114, R100 and R103, each with a decoder of its own. -/
inductive Channel where
  /-- A host command record. -/
  | host
  /-- An event record. -/
  | event
  /-- A wire command frame. -/
  | frame
  /-- A response header. -/
  | response
  deriving DecidableEq, Repr

/-- The channel an instruction travels on: the "format" of its row. -/
def Instr.channel : Instr → Channel
  | .irqTxe _ => .event
  | .irqTc _ => .event
  | .irqRxne _ => .event
  | .tick => .event
  | .rd _ _ => .frame
  | .wr _ _ _ => .frame
  | .rsp _ _ => .response
  | .rspErr _ => .response
  | .portInit _ => .host
  | .beginTx _ _ _ => .host
  | .beginRx _ _ _ => .host
  | .abortRx _ => .host
  | .txStatus _ => .host
  | .rxStatus _ => .host
  | .computeTimeout _ _ _ _ _ _ => .host
  | .delay _ => .host
  | .readReg _ _ _ _ => .host
  | .writeReg _ _ _ _ => .host
  | .selectPage _ _ => .host
  | .getMode _ => .host
  | .setMode _ _ => .host
  | .ensureConfig _ => .host
  | .restoreMode _ _ => .host
  | .settingsWrite _ _ _ _ _ => .host

/-- The decoder of a channel, with address operands of `size` bytes. -/
def decodeOn (size : Nat) : Channel → List Byte → Decoded
  | .host => decodeHost size
  | .event => decodeEvent
  | .frame => decodeFrame
  | .response => decodeResponse

/-- The bytes of a table word: wire headers are numbers with wire byte 0 most significant (the table's notes, R100);
a record's selector is one byte. -/
def tableBytes (nbits w : Nat) : List Byte :=
  match nbits with
  | 8 => [BitVec.ofNat 8 w]
  | 16 => [BitVec.ofNat 8 (w >>> 8), BitVec.ofNat 8 w]
  | 32 => [BitVec.ofNat 8 (w >>> 24), BitVec.ofNat 8 (w >>> 16), BitVec.ofNat 8 (w >>> 8), BitVec.ofNat 8 w]
  | _ => []

/-- The channel of a table word: 32 bits a command frame, 16 a response header, 8 a record, an event's from 0x80 up. -/
def tableChannel (nbits w : Nat) : Channel :=
  match nbits with
  | 32 => .frame
  | 16 => .response
  | _ => if w < 0x80 then .host else .event

/-- The table word's bytes with every byte after them zero, up to the longest record or frame (259 bytes). -/
def tableInput (size nbits w : Nat) : List Byte :=
  match nbits with
  | 32 => tableBytes nbits w ++ List.replicate 255 0
  | 16 => tableBytes nbits w
  | _ => tableBytes nbits w ++ List.replicate (20 + size) 0

/-- The instruction the decoder reads from a word of spec/opcode_table.json, with the address size after reset. -/
def decodeTableWord (nbits w : Nat) : Option Instr :=
  match decodeOn Params.vectors.addrSize (tableChannel nbits w) (tableInput Params.vectors.addrSize nbits w) with
  | .ok (i, _) => some i
  | .error _ => none

end Sys2Proof
end

