-- ==== Sys2Proof/Machine/State.lean ====
section
/-! DEFINITION. The state of the block and of its reference environment (10_state.md, 45_environment.md), as plain data,
and what it holds after reset (R60, R212, R222). -/

namespace Sys2Proof.Machine

/-- `Status` (R116, R240): what a host operation returns. -/
inductive Status where
  | success
  | error
  | invalidParam
  deriving DecidableEq, Repr

/-- Transfer status (R117). -/
inductive XferStatus where
  | idle
  | busy
  deriving DecidableEq, Repr

/-- The spaces a receive destination can lie in (R25). -/
inductive Space where
  | dmem
  | scr
  deriving DecidableEq, Repr

/-- `rx_dest`: a binding to bytes of a space (R25). -/
structure Dest where
  space : Space
  addr : Nat
  deriving DecidableEq, Repr

/-- The null reference `(DMEM, 0)` (R25, R74). -/
def Dest.null : Dest := ⟨.dmem, 0⟩

/-- The transmit half of a Port State (R21 to R24) with its two interrupt enables (R40, R41). -/
structure Transmit where
  /-- `tx_buf[p]`, TXBUF[p] (R21, R70). -/
  buf : List Byte
  /-- `tx_len[p]` (R22). -/
  len : Half
  /-- `tx_cur[p]` (R23). -/
  cur : Half
  /-- `tx_status[p]` (R24). -/
  status : XferStatus
  /-- `TXEIE[p]` (R40). -/
  txeie : Bool
  /-- `TCIE[p]` (R41). -/
  tcie : Bool
  deriving DecidableEq, Repr

/-- The receive half of a Port State (R25 to R28) with its interrupt enable (R42). -/
structure Receive where
  /-- `rx_dest[p]` (R25). -/
  dest : Dest
  /-- `rx_len[p]` (R26). -/
  len : Half
  /-- `rx_cur[p]` (R27). -/
  cur : Half
  /-- `rx_status[p]` (R28). -/
  status : XferStatus
  /-- `RXNEIE[p]` (R42). -/
  rxneie : Bool
  deriving DecidableEq, Repr

/-- The error flags of a received byte (R38). -/
structure LineErrors where
  /-- Framing. -/
  fe : Bool
  /-- Parity. -/
  pe : Bool
  /-- Overrun. -/
  ore : Bool
  /-- Noise. -/
  ne : Bool
  deriving DecidableEq, Repr

/-- No error flag set. -/
def LineErrors.clear : LineErrors := ⟨false, false, false, false⟩

/-- The reference peripheral of a port (R212), with the event flags of R37 and the error flags of R38. -/
structure Periph where
  /-- Transmit data register, empty or a byte. -/
  tdr : Option Byte
  /-- Transmit shift register, empty or a byte. -/
  tsr : Option Byte
  /-- Receive data register. -/
  rdr : Byte
  /-- `TXE[p]`. -/
  txe : Bool
  /-- `TC[p]`. -/
  tc : Bool
  /-- `RXNE[p]`. -/
  rxne : Bool
  /-- `FE[p]`, `PE[p]`, `ORE[p]`, `NE[p]`. -/
  errors : LineErrors
  deriving DecidableEq, Repr

/-- Byte memory by address: strictly rising addresses, no entry equal to what an unlisted address reads as. -/
abbrev Memory := List Host.Cell

/-- The reference device of a port (R220). -/
structure Device where
  /-- `dev_page[p]`, 0 or 1: the device register PAGE (R45). -/
  page : Nat
  /-- `dev_reg[p][g][a]` at key `256 * g + a`; MODE (R46) is the one of page 0. -/
  regs : Memory
  /-- `dev_cmd[p]`: the bytes of the command frame collected so far. -/
  cmd : List Byte
  /-- `dev_out[p]`: response bytes not yet on the line, oldest first. -/
  out : List Byte
  /-- `dev_settle[p]`: ticks during which the device takes no command. -/
  settle : Nat
  deriving DecidableEq, Repr

/-- One port: its Port State (R20), its configuration (R43), its peripheral (R212), its device (R220), the line toward
the device (R215) and the two wire streams (R75). -/
structure Port where
  tx : Transmit
  rx : Receive
  /-- The model's own: has PORT_INIT run on this port (R146, log 14). -/
  initDone : Bool
  /-- The model's own: has a BEGIN_TX succeeded on this port since reset (R56, log 14). -/
  txBegun : Bool
  /-- The model's own: has a BEGIN_RX succeeded on this port since reset (R146, log 14). -/
  rxBegun : Bool
  /-- `cfg[p]` (R43). -/
  line : LineConfig
  periph : Periph
  /-- Bytes shifted out and not yet taken by the device, oldest first (R215, R221). -/
  lineOut : List Byte
  /-- `wire_out[p]`: every byte passed to the peripheral, in order (R75). -/
  wireOut : List Byte
  /-- Every (flags, byte) pair read from the peripheral, in order (R75). -/
  wireIn : List (LineErrors × Byte)
  dev : Device
  deriving DecidableEq, Repr

/-- The FRP sequencer's phase (R30, R171). -/
inductive FrpPhase where
  | idle
  | compose
  | transmitting
  | armReceive
  | startupDelay
  | awaitingResponse
  | evaluate
  | done (s : Status)
  deriving DecidableEq, Repr

/-- `frp_kind` (R31). -/
inductive FrpKind where
  | read
  | write
  deriving DecidableEq, Repr

/-- `frp_buf` (R31): a DMEM address, or the internal form the DCM uses (R172, R178): `(SCR, 2)` for a read, the value
of `dcm_target` for a write. -/
inductive FrpBuf where
  | dmem (a : Nat)
  | internal
  deriving DecidableEq, Repr

/-- The FRP sequencer's phase and working registers (R30, R31). -/
structure Frp where
  phase : FrpPhase
  kind : FrpKind
  port : Byte
  addr : Byte
  len : Byte
  buf : FrpBuf
  /-- Retries made so far, 2 bits. -/
  attempt : BitVec 2
  /-- The sample a delay or window is measured from. -/
  t0 : Tick
  /-- The timeout in ticks. -/
  tmo : Nat
  deriving DecidableEq, Repr

/-- The DCM sequencer's phase (R33, R190). -/
inductive DcmPhase where
  | idle
  | readCurrent
  | decide
  | writeNew
  | settle
  | done (s : Status)
  deriving DecidableEq, Repr

/-- The DCM sequencer's phase and working registers (R33, R34). -/
structure Dcm where
  phase : DcmPhase
  port : Byte
  /-- The requested page or mode. -/
  target : Byte
  /-- The page or mode read back. -/
  current : Byte
  /-- The mode ENSURE_CONFIG returns. -/
  prev : Byte
  deriving DecidableEq, Repr

/-- The operations that are one pass through the DCM's phases (R190). -/
inductive Pass where
  | selectPage
  | getMode
  | setMode
  deriving DecidableEq, Repr

/-- Where an ENSURE_CONFIG is (R198): in its GET_MODE or in its SET_MODE. -/
inductive EnsureStage where
  | reading
  | switching
  deriving DecidableEq, Repr

/-- Which of its four calls a SETTINGS_WRITE is in (R202). -/
inductive SettingsStage where
  | ensuring
  | paging
  | writing
  | restoring
  deriving DecidableEq, Repr

/-- A frame of FG's control stack (R32). -/
inductive Frame where
  /-- DELAY: the count and the entry sample (R165). -/
  | delay (n : Half) (t0 : Tick)
  /-- READ_REG or WRITE_REG; its data are the `frp_*` registers. -/
  | frp
  /-- A DCM pass; its data are the `dcm_*` registers. -/
  | dcm (k : Pass)
  /-- ENSURE_CONFIG. -/
  | ensure (stage : EnsureStage)
  /-- RESTORE_MODE. -/
  | restore
  /-- SETTINGS_WRITE with its operands. -/
  | settings (stage : SettingsStage) (page addr len : Byte) (payload : Nat)
  deriving DecidableEq, Repr

/-- The extra result of a host operation (R113, "Extra result"). -/
inductive ReturnValue where
  | none
  /-- TX_STATUS, RX_STATUS. -/
  | transfer (x : XferStatus)
  /-- COMPUTE_TIMEOUT: exact milliseconds. -/
  | millis (q : Rat)
  /-- GET_MODE, ENSURE_CONFIG. -/
  | mode (m : Byte)
  deriving DecidableEq, Repr

/-- What a host operation returned (R240, R113). -/
structure Return where
  status : Status
  value : ReturnValue
  deriving DecidableEq, Repr

/-- Which agent moves next, with what the environment chooses in that step (R81, log 4). -/
inductive Move where
  /-- FG's turn. -/
  | fg
  /-- An event fires: the record of IRQ_TXE, IRQ_TC, IRQ_RXNE or TICK (R114). -/
  | event (record : List Byte)
  /-- `TxLoad(p)` (R214). -/
  | txLoad (p : Nat)
  /-- `TxShiftOut(p)` (R215). -/
  | txShiftOut (p : Nat)
  /-- `RxArrive(p, b, e)` with `e ⊆ {FE, PE, NE}` (R216). -/
  | rxArrive (p : Nat) (b : Byte) (fe pe ne : Bool)
  /-- `DevTake(p)` (R221); with a code index, `DevFault(p)` replaces the execution of the frame it completes (R226). -/
  | devTake (p : Nat) (fault : Option (Fin 9))
  /-- `DevSend(p)` with the link's choice of `e` (R225). -/
  | devSend (p : Nat) (fe pe ne : Bool)
  /-- The host stores a byte of its own memory (R92, log 25). -/
  | hostStore (a : Nat) (b : Byte)
  /-- The bring-up layer changes `cfg[p]` (R265, log 25). -/
  | configure (p : Nat) (line : LineConfig)
  /-- Reset of the block (R280, log 24). -/
  | resetBlock
  deriving DecidableEq, Repr

/-- The whole machine. -/
structure State where
  /-- The open parameters (R5, log 3). -/
  params : Params
  /-- The ports; their number is `N_PORTS` (R20). -/
  ports : List Port
  /-- SCR (R35, R71). -/
  scr : Vector Byte 5
  /-- DMEM (R74). -/
  dmem : Memory
  /-- The millisecond counter (R47). -/
  tick : Tick
  /-- The FRP sequencer (R30, R31). -/
  frp : Frp
  /-- The DCM sequencer (R33, R34). -/
  dcm : Dcm
  /-- FG's control stack, innermost call first (R32); empty when FG is idle. -/
  fg : List Frame
  /-- What the last operation returned, if it has (R240, log 21). -/
  ret : Option Return
  /-- The model's own: host records not fetched yet (R112, log 5). -/
  commands : List Byte
  /-- The model's own: the interleaving (R81, log 4). -/
  moves : List Move
  /-- The model's own: how many drawn values have been used (R8, log 10). -/
  draws : Nat
  /-- The model's own: the port whose device executes a frame (R221, log 20). -/
  activePort : Nat
  deriving DecidableEq, Repr

/-- Why the machine stops where a step has no transition. -/
inductive Fault where
  /-- Raised by an access of the host, a host operation, a sequencer or IRQ_RXNE past the top of DMEM (R73, R92). Safe: the
  block goes on there without a meaning. -/
  | outsideDmem
  /-- Raised by an access past the top of SCR (R73); no reachable state does it. Safe. -/
  | outsideScr
  /-- Raised by IRQ_TXE with a cursor past the top of TXBUF (R73); no reachable state does it. Safe. -/
  | outsideTxbuf
  /-- Raised by FG's turn when stack and phases do not fit together; no reachable state does it (log 23). Safe. -/
  | brokenSequencer
  deriving DecidableEq, Repr

/-- Why a step gives no meaning. -/
inductive Refusal where
  /-- Raised by `exec` for an instruction without a meaning: none is left. Safe. -/
  | notModelled (mnemonic : String)
  /-- Raised by fetching a selector or event code that is in no table (R112). Safe. -/
  | unknownSelector
  /-- Raised by fetching a record whose bytes end early (log 1). Safe. -/
  | truncatedRecord
  /-- Raised by COMPUTE_TIMEOUT and by the response timeout on an illegal line configuration (R160, R43). Safe. -/
  | illegalLineConfig
  /-- Raised by PORT_INIT on a port that has had its PORT_INIT (R146, R281). Safe. -/
  | secondPortInit
  /-- Raised by a first PORT_INIT on a port on which a transfer has been started: R146 puts it before any other
  operation on the port, and R56 has no rule for it (log 14). Safe. -/
  | latePortInit
  /-- Raised by a host operation while FG is inside another one, which no fetch does (R32, R309, log 22). Safe. -/
  | foregroundBusy
  /-- Raised by a sequencer or a device frame on a port that does not exist; no reachable state does it (log 23).
  Safe. -/
  | noSuchPort
  deriving DecidableEq, Repr

/-- The outcome of a step or of an instruction. -/
abbrev Result := Host.Outcome State Fault Refusal

/-- The transmit half after reset, with the buffer given (R60). -/
def Transmit.reset (buf : List Byte) : Transmit := ⟨buf, 0, 0, .idle, false, false⟩

/-- The receive half after reset (R60). -/
def Receive.reset : Receive := ⟨Dest.null, 0, 0, .idle, false⟩

/-- The reference peripheral after its reset (R212); `rdr` is unspecified there: DESIGN CHOICE zero (log 9). -/
def Periph.reset : Periph := ⟨none, none, 0, true, false, false, LineErrors.clear⟩

/-- The reference device after its reset (R222). -/
def Device.reset (c : Params) : Device :=
  ⟨0, if c.modeConfig = 0 then [] else [(c.modeReg.toNat, c.modeConfig)], [], [], 0⟩

/-- A port after reset. The buffer's bytes are unspecified by R60: DESIGN CHOICE zero (log 9). -/
def Port.reset (c : Params) (line : LineConfig) : Port where
  tx := Transmit.reset (List.replicate c.txCap 0)
  rx := Receive.reset
  initDone := false
  txBegun := false
  rxBegun := false
  line := line
  periph := Periph.reset
  lineOut := []
  wireOut := []
  wireIn := []
  dev := Device.reset c

/-- The FRP sequencer after reset: Idle (R60); the working registers are unspecified: DESIGN CHOICE zero (log 9). -/
def Frp.reset : Frp := ⟨.idle, .read, 0, 0, 0, .dmem 0, 0, 0, 0⟩

/-- The DCM sequencer after reset: Idle (R60); the working registers are unspecified: DESIGN CHOICE zero (log 9). -/
def Dcm.reset : Dcm := ⟨.idle, 0, 0, 0, 0⟩

/-- The machine right after reset (R60, R62, R212, R222), with the test vectors' parameters and one port (log 3). -/
def State.reset : State where
  params := Params.vectors
  ports := [Port.reset Params.vectors LineConfig.vectors]
  scr := Vector.replicate 5 0
  dmem := []
  tick := 0
  frp := Frp.reset
  dcm := Dcm.reset
  fg := []
  ret := none
  commands := []
  moves := []
  draws := 0
  activePort := 0

end Sys2Proof.Machine
end

