-- ==== Sys2Proof/Machine/Ops.lean ====
section
/-! DEFINITION. The named operations: byte memory (R73), ports, the three peripheral primitives (R262 to R264), the
clock (R164), draws (R8), returning a status (R240) and taking an interrupt (R245, R252, R254). -/

namespace Sys2Proof.Machine

/-- What an unlisted address reads as: DESIGN CHOICE zero for DMEM (log 8); the reset contents of the reference
device's registers (R222). -/
def blankByte : Byte := 0

/-- Read one byte. -/
def memRead : Memory → Nat → Byte
  | [], _ => blankByte
  | (k, v) :: m, a => if k = a then v else memRead m a

/-- Put a listed byte in its place in the rising order, in place of an entry of that address. -/
def memInsert (m : Memory) (a : Nat) (b : Byte) : Memory :=
  match m with
  | [] => [(a, b)]
  | (k, v) :: m =>
    if k < a then (k, v) :: memInsert m a b
    else if k = a then (a, b) :: m
    else (a, b) :: (k, v) :: m

/-- Take an address out of the list, so that it reads as an unlisted one. -/
def memErase (m : Memory) (a : Nat) : Memory := m.filter fun c => decide (c.1 ≠ a)

/-- Write one byte, keeping the canonical form. -/
def memWrite (m : Memory) (a : Nat) (b : Byte) : Memory :=
  if b = blankByte then memErase m a else memInsert m a b

/-- The canonical form: addresses strictly rising, no entry that reads as an unlisted address. -/
def Memory.wf (m : Memory) : Bool :=
  decide (m.Pairwise fun x y => x.1 < y.1) && m.all fun c => decide (c.2 ≠ blankByte)

/-- `N_PORTS` (R5). -/
def State.nPorts (s : State) : Nat := s.ports.length

/-- Replace port `p`. -/
def State.setPort (s : State) (p : Nat) (port : Port) : State := { s with ports := s.ports.set p port }

/-- Replace the FRP phase (R30). -/
def State.setFrpPhase (s : State) (ph : FrpPhase) : State := { s with frp := { s.frp with phase := ph } }

/-- Replace the DCM phase (R33). -/
def State.setDcmPhase (s : State) (ph : DcmPhase) : State := { s with dcm := { s.dcm with phase := ph } }

/-- Replace FG's control stack (R32). -/
def State.setFg (s : State) (stack : List Frame) : State := { s with fg := stack }

/-- The first address past DMEM (R74). -/
def State.dmemTop (s : State) : Nat := 2 ^ s.params.addrW

/-- `MemRead(DMEM, a, n)` (R73): past the top of DMEM it has no meaning. -/
def readDmem (s : State) (a n : Nat) : Except Fault (List Byte) :=
  if a + n ≤ s.dmemTop then .ok ((List.range n).map fun i => memRead s.dmem (a + i)) else .error .outsideDmem

/-- One byte of DMEM or SCR (R73). -/
def readByte (s : State) (sp : Space) (a : Nat) : Except Fault Byte :=
  match sp with
  | .dmem => if a < s.dmemTop then .ok (memRead s.dmem a) else .error .outsideDmem
  | .scr => match s.scr[a]? with
    | some b => .ok b
    | none => .error .outsideScr

/-- `MemWrite(sp, a, 1, [b])` (R73). -/
def writeByte (s : State) (sp : Space) (a : Nat) (b : Byte) : Except Fault State :=
  match sp with
  | .dmem => if a < s.dmemTop then .ok { s with dmem := memWrite s.dmem a b } else .error .outsideDmem
  | .scr => if a < 5 then .ok { s with scr := s.scr.setIfInBounds a b } else .error .outsideScr

/-- `PeriphWriteData(p, b)` (R213, R262): the byte also joins `wire_out[p]` (R75). -/
def periphWriteData (port : Port) (b : Byte) : Port :=
  { port with periph := { port.periph with tdr := some b, txe := false, tc := false }, wireOut := port.wireOut ++ [b] }

/-- `PeriphReadStatusData(p)` (R217, R263): the flags and the byte, and the port with both cleared; the pair also
joins the incoming stream (R75). -/
def periphReadStatusData (port : Port) : LineErrors × Byte × Port :=
  (port.periph.errors, port.periph.rdr,
    { port with periph := { port.periph with rxne := false, errors := LineErrors.clear },
                wireIn := port.wireIn ++ [(port.periph.errors, port.periph.rdr)] })

/-- `PeriphClearTC(p)` (R218, R264). -/
def periphClearTc (port : Port) : Port := { port with periph := { port.periph with tc := false } }

/-- `Now() -_32 t0`, the ticks gone by since a sample (R164), as a count. -/
def State.elapsed (s : State) (t0 : Tick) : Nat := (s.tick - t0).toNat

/-- `SCR[0..1] <- draw` (R35, R178). -/
def drawWresp (s : State) : State :=
  { s with scr := (s.scr.setIfInBounds 0 (Config.freeByte s.draws)).setIfInBounds 1 (Config.freeByte (s.draws + 1)),
           draws := s.draws + 2 }

/-- `SCR[2..4] <- draw` (R35, R190). -/
def drawDcmBuf (s : State) : State :=
  { s with scr := ((s.scr.setIfInBounds 2 (Config.freeByte s.draws)).setIfInBounds 3
                    (Config.freeByte (s.draws + 1))).setIfInBounds 4 (Config.freeByte (s.draws + 2)),
           draws := s.draws + 3 }

/-- `return s` of a host operation to the host (R8, R240): a status and a value, and FG is idle. This is the block's
one way to report a synchronous failure: nothing else is saved and nothing is undone (R240, R243). -/
def State.returned (s : State) (st : Status) (v : ReturnValue) : State := { s with fg := [], ret := some ⟨st, v⟩ }

/-- A host operation that does not return in its issuing step: nothing is returned yet (log 21). -/
def State.started (s : State) : State := { s with ret := none }

/-- A host operation runs only when FG is idle (R32); FG never fetches one otherwise (R309, log 22). -/
def foreground (s : State) (k : Result) : Result :=
  match s.fg with
  | [] => k
  | _ => .refused .foregroundBusy

/-- The port check every host operation with a port operand makes first (R242). -/
def onPort (p : Byte) (s : State) (k : Port → Result) : Result :=
  match s.ports[p.toNat]? with
  | none => .next (s.returned .invalidParam .none)
  | some port => k port

/-- A serial interrupt: the arm of a pending event runs in one step; entry and return save, change and restore
nothing (R245, R252, R254). An event that is not pending, or of a port that does not exist, runs nothing (log 15). -/
def takeInterrupt (p : Byte) (s : State) (pending : Port → Bool) (arm : Port → Result) : Result :=
  match s.ports[p.toNat]? with
  | none => .next s
  | some port => if pending port then arm port else .next s

end Sys2Proof.Machine
end

