-- ==== Sys2Proof/Machine/Flags.lean ====
section
/-! DEFINITION. Flags: pending events (R245), line errors (R38, R154), the codes of the enumerations (R116, R117), and
the classification of a response (R105, R106, R111). There are no arithmetic flags (10_state.md section 3). -/

namespace Sys2Proof.Machine

/-- The transmit-register-empty event is pending (R245). -/
def Port.pendingTxe (p : Port) : Bool := p.tx.txeie && p.periph.txe

/-- The transmit-complete event is pending (R245). -/
def Port.pendingTc (p : Port) : Bool := p.tx.tcie && p.periph.tc

/-- The receive-not-empty event is pending (R245). -/
def Port.pendingRxne (p : Port) : Bool := p.rx.rxneie && p.periph.rxne

/-- `e ≠ ∅`: any one of the four flags is enough (R154). -/
def LineErrors.any (e : LineErrors) : Bool := e.fe || e.pe || e.ore || e.ne

/-- The numbers of R116. -/
def Status.code : Status → Nat
  | .success => 0
  | .error => 1
  | .invalidParam => 2

/-- The bit of R117. -/
def XferStatus.bit : XferStatus → BitVec 1
  | .idle => 0
  | .busy => 1

/-- Is the header `b0 b1` a device error: for a read byte 0 alone decides (R105), for a write `EE 01` is none (R106). -/
def responseIsError (kind : FrpKind) (b0 b1 : Byte) : Bool :=
  match kind with
  | .read => b0 == sentinel
  | .write => b0 == sentinel && b1 != writeOkMark

end Sys2Proof.Machine
end

