-- ==== Sys2Proof/Machine/Operands.lean ====
section
/-! DEFINITION. Operand forms and operand checks: the parameter checks in the order of each operation's pseudocode
(R242), the two forms of a register access's buffer (R172, R178), the frame and the response count it implies
(R107, R110), the delays chosen by attempt and by mode (R174, R197). -/

namespace Sys2Proof.Machine

/-- A port operand names a port (R242). -/
def State.hasPort (s : State) (p : Byte) : Bool := decide (p.toNat < s.nPorts)

/-- The checks of BEGIN_TX on a count, then the busy check (R140, R242); `success` lets the transfer start. -/
def txCheck (c : Params) (port : Port) (n : Nat) : Status :=
  if n = 0 ∨ c.txCap < n then .invalidParam
  else match port.tx.status with
    | .busy => .error
    | .idle => .success

/-- The checks of BEGIN_RX on destination and count, then the busy check (R142, R242). -/
def rxCheck (port : Port) (dest : Dest) (n : Half) : Status :=
  if dest = Dest.null ∨ n = 0 then .invalidParam
  else match port.rx.status with
    | .busy => .error
    | .idle => .success

/-- `page ∈ {0, 1}` (R118, R192). -/
def validPage (page : Byte) : Bool := page == 0 || page == 1

/-- `mode ∈ MODE_SET` (R119, R196). -/
def validMode (c : Params) (mode : Byte) : Bool := c.modeSet.contains mode

/-- Step 1 of READ_REG and WRITE_REG: the port, a buffer that is not null, `len >= 1` (R172, R178). -/
def frpValid (s : State) (p len : Byte) (buf : FrpBuf) : Bool :=
  s.hasPort p && decide (buf ≠ .dmem 0) && decide (len ≠ 0)

/-- The validation of a DCM pass: the port, and a legal page or mode where the operation takes one (R192 to R196). -/
def passValid (s : State) (k : Pass) (p target : Byte) : Bool :=
  s.hasPort p && match k with
    | .selectPage => validPage target
    | .getMode => true
    | .setMode => validMode s.params target

/-- The device register a DCM pass reads and writes (R190). -/
def passReg (c : Params) : Pass → Byte
  | .selectPage => c.pageReg
  | .getMode => c.modeReg
  | .setMode => c.modeReg

/-- Where the response of the FRP operation goes: a read's destination (R172), WRESP for a write (R180). -/
def Frp.dest (r : Frp) : Dest :=
  match r.kind with
  | .write => ⟨.scr, 0⟩
  | .read => match r.buf with
    | .dmem a => ⟨.dmem, a⟩
    | .internal => ⟨.scr, 2⟩

/-- How many response bytes are collected (R110): `2 + len` for a read, 2 for a write. -/
def Frp.responseCount (r : Frp) : Nat :=
  match r.kind with
  | .read => 2 + r.len.toNat
  | .write => 2

/-- The payload of a write, read at Compose (R107, R108): the caller's bytes, or the DCM's one byte (R178). -/
def frpPayload (s : State) : Except Fault (List Byte) :=
  match s.frp.buf with
  | .dmem a => readDmem s a s.frp.len.toNat
  | .internal => .ok [s.dcm.target]

/-- The command frame of the attempt: an RD frame (R173) or a WR frame (R179). -/
def frpFrame (s : State) : Except Fault (List Byte) :=
  match s.frp.kind with
  | .read => .ok (rdFrame s.frp.addr s.frp.len)
  | .write => match frpPayload s with
    | .ok d => .ok (wrFrame s.frp.addr s.frp.len d)
    | .error f => .error f

/-- The startup delay of an attempt, in ticks (R174). -/
def startupTicks (attempt : BitVec 2) : Nat := if attempt = 0 then startFirst else startRetry

/-- The settle delay, in ticks, from the mode read back and the mode requested (R197). -/
def settleTicks (c : Params) (cur mode : Byte) : Half :=
  if cur ≠ c.modeConfig ∧ mode = c.modeConfig then settleToConfig
  else if cur = c.modeConfig ∧ mode ≠ c.modeConfig then settleFromConfig
  else 0

/-- The first two bytes at the response's destination, for Evaluate. Byte 0 is an access (R177, R181); byte 1 of a
read decides nothing and is looked at without one (log 19). -/
def responseHeader (s : State) : Except Fault (List Byte) :=
  match readByte s s.frp.dest.space s.frp.dest.addr with
  | .error f => .error f
  | .ok b0 => match s.frp.dest.space with
    | .dmem => .ok [b0, memRead s.dmem (s.frp.dest.addr + 1)]
    | .scr => .ok [b0, (s.scr[s.frp.dest.addr + 1]?).getD blankByte]

end Sys2Proof.Machine
end

