-- ==== Sys2Proof/Machine/Timing.lean ====
section
/-! DEFINITION. The Timeout Calculator, DELAY and TICK (42_timeout_delay.md, R210, R225). -/

namespace Sys2Proof.Machine

/-- The legal values of R43 and R160. -/
def legalLine (baudRate wordLength parityEnabled stopHalves : Nat) : Bool :=
  decide (baudRate ≠ 0) && decide (wordLength = 8 ∨ wordLength = 9) && decide (parityEnabled ≤ 1) &&
  decide (stopHalves = 1 ∨ stopHalves = 2 ∨ stopHalves = 4)

/-- `total_bits` (R160, R162): 8, the extension bit, the parity bit, the stop bits. -/
def totalBits (wordLength parityEnabled stopHalves : Nat) : Rat :=
  8 + ((wordLength - 8 : Nat) : Rat) + (parityEnabled : Rat) + (stopHalves : Rat) / 2

/-- COMPUTE_TIMEOUT's value in exact milliseconds (R160, R161); none on an illegal configuration. -/
def timeoutMillis (baudRate wordLength parityEnabled stopHalves payloadLength : Nat) (margin : Rat) : Option Rat :=
  if legalLine baudRate wordLength parityEnabled stopHalves then
    some ((1000 / (baudRate : Rat)) * totalBits wordLength parityEnabled stopHalves * (payloadLength : Rat) * margin)
  else none

/-- `TimeoutTicks(q) = ceil(q)` (R163). -/
def timeoutTicks (q : Rat) : Nat := q.ceil.toNat

/-- The response timeout of a port in ticks: margin 5 (R175, R180). -/
def responseTicks (line : LineConfig) (payloadLength : Nat) : Option Nat :=
  (timeoutMillis line.baudRate line.wordLength line.parityEnabled line.stopHalves payloadLength
    (marginResponse : Rat)).map timeoutTicks

/-- COMPUTE_TIMEOUT (R160): pure; the value is the extra result (R113). -/
def execComputeTimeout (baudRate wordLength parityEnabled stopHalves payloadLength : Nat) (margin : Margin)
    (s : State) : Result :=
  foreground s
    (match timeoutMillis baudRate wordLength parityEnabled stopHalves payloadLength margin.value with
      | some q => .next (s.returned .success (.millis q))
      | none => .refused .illegalLineConfig)

/-- DELAY n (R165): the entry sample and the first test in one step, so `DELAY 0` returns at once. -/
def execDelay (n : Half) (s : State) : Result :=
  foreground s
    (if n = 0 then .next (s.returned .success .none) else .next (s.started.setFg [.delay n s.tick]))

/-- `DevTick(p)` (R225). -/
def Port.devTick (port : Port) : Port := { port with dev := { port.dev with settle := port.dev.settle - 1 } }

/-- TICK (R210), with each device's DevTick taken together with it (R225). -/
def execTick (s : State) : Result := .next { s with tick := s.tick + 1, ports := s.ports.map Port.devTick }

end Sys2Proof.Machine
end

