-- ==== Sys2Proof/Machine/Transport.lean ====
section
/-! DEFINITION. The Serial Transport Engine's host operations (40_transport_ops.md): the internal forms that READ_REG
and WRITE_REG call, then the meaning of each host form. -/

namespace Sys2Proof.Machine

/-- The port after a BEGIN_TX that succeeds: a copy of the bytes, cursor 0, Busy, TXEIE on (R140). -/
def Port.startTx (port : Port) (bytes : List Byte) : Port :=
  { port with tx := { port.tx with buf := bytes ++ port.tx.buf.drop bytes.length, len := BitVec.ofNat 16 bytes.length,
                                   cur := 0, status := .busy, txeie := true },
              txBegun := true }

/-- The port after a BEGIN_RX that succeeds: the destination bound, cursor 0, Busy, RXNEIE on (R142). -/
def Port.startRx (port : Port) (dest : Dest) (n : Half) : Port :=
  { port with rx := ⟨dest, n, 0, .busy, true⟩, rxBegun := true }

/-- The port after ABORT_RX: RXNEIE off, Idle, cursor and length 0, destination null (R144, D15). -/
def Port.abortRx (port : Port) : Port := { port with rx := ⟨Dest.null, 0, 0, .idle, false⟩ }

/-- The port after PORT_INIT: the ten registers of R146 at their reset values; the buffer's bytes stay. -/
def Port.bringUp (port : Port) : Port :=
  { port with tx := Transmit.reset port.tx.buf, rx := Receive.reset, initDone := true }

/-- BEGIN_TX, internal form (R140): the status, and the state it leaves; a rejection changes nothing. -/
def beginTx (p : Nat) (bytes : List Byte) (s : State) : Status × State :=
  match s.ports[p]? with
  | none => (.invalidParam, s)
  | some port => match txCheck s.params port bytes.length with
    | .success => (.success, s.setPort p (port.startTx bytes))
    | st => (st, s)

/-- BEGIN_RX, internal form (R142): the status, and the state it leaves; a rejection changes nothing. -/
def beginRx (p : Nat) (dest : Dest) (n : Half) (s : State) : Status × State :=
  match s.ports[p]? with
  | none => (.invalidParam, s)
  | some port => match rxCheck port dest n with
    | .success => (.success, s.setPort p (port.startRx dest n))
    | st => (st, s)

/-- ABORT_RX as the timed wait calls it (R144, R166). -/
def abortRx (p : Nat) (s : State) : State :=
  match s.ports[p]? with
  | none => s
  | some port => s.setPort p port.abortRx

/-- PORT_INIT p (R146, R281): once per port, before any transfer on it (log 14). -/
def execPortInit (p : Byte) (s : State) : Result :=
  foreground s (onPort p s fun port =>
    if port.initDone then .refused .secondPortInit
    else if port.txBegun || port.rxBegun then .refused .latePortInit
    else .next ((s.setPort p.toNat port.bringUp).returned .success .none))

/-- BEGIN_TX p, src, n (R140): the checks, then the bytes from DMEM, then the internal form. -/
def execBeginTx (p : Byte) (src : Nat) (n : Half) (s : State) : Result :=
  foreground s (onPort p s fun port =>
    if src = 0 then .next (s.returned .invalidParam .none)
    else match txCheck s.params port n.toNat with
      | .success => match readDmem s src n.toNat with
        | .ok bytes => .next ((beginTx p.toNat bytes s).2.returned (beginTx p.toNat bytes s).1 .none)
        | .error f => .fault f
      | st => .next (s.returned st .none))

/-- BEGIN_RX p, dst, n (R142). -/
def execBeginRx (p : Byte) (dst : Nat) (n : Half) (s : State) : Result :=
  foreground s (.next ((beginRx p.toNat ⟨.dmem, dst⟩ n s).2.returned (beginRx p.toNat ⟨.dmem, dst⟩ n s).1 .none))

/-- ABORT_RX p (R144). -/
def execAbortRx (p : Byte) (s : State) : Result :=
  foreground s (onPort p s fun _ => .next ((abortRx p.toNat s).returned .success .none))

/-- TX_STATUS p (R145). -/
def execTxStatus (p : Byte) (s : State) : Result :=
  foreground s (onPort p s fun port => .next (s.returned .success (.transfer port.tx.status)))

/-- RX_STATUS p (R147). -/
def execRxStatus (p : Byte) (s : State) : Result :=
  foreground s (onPort p s fun port => .next (s.returned .success (.transfer port.rx.status)))

end Sys2Proof.Machine
end

