-- ==== Sys2Proof/Machine/Protocol.lean ====
section
/-! DEFINITION. The Framed Register Protocol (43_protocol.md): issue of READ_REG and WRITE_REG (R171 row Idle), one
definition for each later row of R171, and the classification of a response header (R105, R106). -/

namespace Sys2Proof.Machine

/-- The registers of an operation that has been issued (R31, R171). -/
def Frp.issued (r : Frp) (kind : FrpKind) (p addr len : Byte) (buf : FrpBuf) : Frp :=
  { r with phase := .compose, kind := kind, port := p, addr := addr, len := len, buf := buf, attempt := 0 }

/-- Issue READ_REG above the frames `callers` (R171 row Idle, R172 step 1). -/
def issueRead (p addr len : Byte) (buf : FrpBuf) (callers : List Frame) (s : State) : State :=
  if frpValid s p len buf then
    { s with frp := s.frp.issued .read p addr len buf, fg := .frp :: callers }
  else (s.setFrpPhase (.done .invalidParam)).setFg (.frp :: callers)

/-- Issue WRITE_REG above the frames `callers` (R171 row Idle, R178 step 1): WRESP takes a drawn value (R35). -/
def issueWrite (p addr len : Byte) (buf : FrpBuf) (callers : List Frame) (s : State) : State :=
  if frpValid s p len buf then
    drawWresp { s with frp := s.frp.issued .write p addr len buf, fg := .frp :: callers }
  else (s.setFrpPhase (.done .invalidParam)).setFg (.frp :: callers)

/-- READ_REG p, addr, len, out (R172): the step that issues it; its later steps are FG's turns (R171). -/
def execReadReg (p addr len : Byte) (out : Nat) (s : State) : Result :=
  foreground s (.next (issueRead p addr len (.dmem out) [] s.started))

/-- WRITE_REG p, addr, len, payload (R178): the step that issues it; its later steps are FG's turns (R171). -/
def execWriteReg (p addr len : Byte) (payload : Nat) (s : State) : Result :=
  foreground s (.next (issueWrite p addr len (.dmem payload) [] s.started))

/-- Row Compose (R171): build the frame, `call BEGIN_TX`. -/
def frpCompose (s : State) : Result :=
  match frpFrame s with
  | .error f => .fault f
  | .ok bytes => match beginTx s.frp.port.toNat bytes s with
    | (.success, s1) => .next (s1.setFrpPhase .transmitting)
    | (st, s1) => .next (s1.setFrpPhase (.done st))

/-- Row Transmitting (R171, R167): test `tx_status[p]`. -/
def frpTransmitting (s : State) : Result :=
  match s.ports[s.frp.port.toNat]? with
  | none => .refused .noSuchPort
  | some port => match port.tx.status with
    | .busy => .next s
    | .idle => .next (s.setFrpPhase .armReceive)

/-- Row ArmReceive (R171): `call BEGIN_RX`; `frp_t0 <- Now()`. -/
def frpArmReceive (s : State) : Result :=
  match beginRx s.frp.port.toNat s.frp.dest (BitVec.ofNat 16 s.frp.responseCount) s with
  | (.success, s1) => .next { s1 with frp := { s1.frp with phase := .startupDelay, t0 := s1.tick } }
  | (st, s1) => .next (s1.setFrpPhase (.done st))

/-- Row StartupDelay (R171, R174): test the delay; at its end compute the timeout and open the window (R175, R180). -/
def frpStartupDelay (s : State) : Result :=
  if s.elapsed s.frp.t0 < startupTicks s.frp.attempt then .next s
  else match s.ports[s.frp.port.toNat]? with
    | none => .refused .noSuchPort
    | some port => match responseTicks port.line s.frp.responseCount with
      | none => .refused .illegalLineConfig
      | some k => .next { s with frp := { s.frp with phase := .awaitingResponse, t0 := s.tick, tmo := k } }

/-- Row AwaitingResponse (R171, R166): the status first, then the time; a timeout aborts the receive and reports
nothing (R176). -/
def frpAwaitingResponse (s : State) : Result :=
  match s.ports[s.frp.port.toNat]? with
  | none => .refused .noSuchPort
  | some port => match port.rx.status with
    | .idle => .next (s.setFrpPhase .evaluate)
    | .busy =>
      if s.elapsed s.frp.t0 < s.frp.tmo then .next s
      else .next ((abortRx s.frp.port.toNat s).setFrpPhase .evaluate)

/-- Row Evaluate (R171, R177, R181, R182) for the header `b0 b1`: success, or a retry while `frp_attempt < 2`, or
`Error`. A header is looked at in Evaluate only (log 19). -/
def evaluateHeader (b0 b1 : Byte) (s : State) : State :=
  match s.frp.phase with
  | .evaluate =>
    if responseIsError s.frp.kind b0 b1 then
      if s.frp.attempt < maxRetries then
        { s with frp := { s.frp with phase := .compose, attempt := s.frp.attempt + 1 } }
      else s.setFrpPhase (.done .error)
    else s.setFrpPhase (.done .success)
  | _ => s

/-- RSP status length (R103, R105, R106): Evaluate meets a header that does not start with the sentinel. -/
def execRsp (status length : Byte) (s : State) : Result := .next (evaluateHeader status length s)

/-- RSP_ERR code (R104, R105, R106): Evaluate meets a header that starts with the sentinel. -/
def execRspErr (code : Byte) (s : State) : Result := .next (evaluateHeader sentinel code s)

end Sys2Proof.Machine
end

