-- ==== Sys2Proof/Machine/Context.lean ====
section
/-! DEFINITION. The Device Context Manager (44_device_context.md): issue of a pass (R190 row Idle), the later rows of
R190, and `deliver`, the return of a status from a called operation to its caller, which stops at the first status
that is not Success (R170). -/

namespace Sys2Proof.Machine

/-- Issue a DCM pass above the frames `callers` (R190 row Idle). -/
def issuePass (k : Pass) (p target : Byte) (callers : List Frame) (s : State) : State :=
  if passValid s k p target then
    { s with dcm := { s.dcm with phase := .readCurrent, port := p,
                                 target := if k = .getMode then s.dcm.target else target },
             fg := .dcm k :: callers }
  else (s.setDcmPhase (.done .invalidParam)).setFg (.dcm k :: callers)

/-- SELECT_PAGE p, page (R192): the step that issues it; its later steps are FG's turns (R190). -/
def execSelectPage (p page : Byte) (s : State) : Result :=
  foreground s (.next (issuePass .selectPage p page [] s.started))

/-- GET_MODE p (R194): the step that issues it; its later steps are FG's turns (R190). -/
def execGetMode (p : Byte) (s : State) : Result :=
  foreground s (.next (issuePass .getMode p 0 [] s.started))

/-- SET_MODE p, mode (R196): the step that issues it; its later steps are FG's turns (R190). -/
def execSetMode (p mode : Byte) (s : State) : Result :=
  foreground s (.next (issuePass .setMode p mode [] s.started))

/-- ENSURE_CONFIG p (R198): the step that issues it and its GET_MODE. -/
def execEnsureConfig (p : Byte) (s : State) : Result :=
  foreground s (.next (issuePass .getMode p 0 [.ensure .reading] s.started))

/-- RESTORE_MODE p, mode (R200): the step that issues it and its SET_MODE. -/
def execRestoreMode (p mode : Byte) (s : State) : Result :=
  foreground s (.next (issuePass .setMode p mode [.restore] s.started))

/-- SETTINGS_WRITE p, page, addr, len, payload (R202): the step that issues it, its ENSURE_CONFIG and that one's
GET_MODE. -/
def execSettingsWrite (p page addr len : Byte) (payload : Nat) (s : State) : Result :=
  foreground s
    (.next (issuePass .getMode p 0 [.ensure .reading, .settings .ensuring page addr len payload] s.started))

/-- Where a pass goes from Decide (R190): GET_MODE is done, SELECT_PAGE writes only if the page differs, SET_MODE
always writes (D22). -/
def decideNext (k : Pass) (cur target : Byte) : DcmPhase :=
  match k with
  | .getMode => .done .success
  | .selectPage => if cur = target then .done .success else .writeNew
  | .setMode => .writeNew

/-- Where a pass goes from WriteNew when its WRITE_REG returns `st` (R190): SET_MODE settles on Success. -/
def afterWrite (k : Pass) (st : Status) : DcmPhase :=
  match k, st with
  | .setMode, .success => .settle
  | _, st => .done st

/-- The extra result of a pass that returns `st` (R194): GET_MODE's mode, on Success only. -/
def passValue (k : Pass) (st : Status) (s : State) : ReturnValue :=
  match k, st with
  | .getMode, .success => .mode s.dcm.current
  | _, _ => .none

/-- Return `st` and `v` from a called operation to the caller on top of the stack given, or to the host when there is
none (R170, R190, R198, R200, R202). A status that is not Success is passed up at once and nothing is undone. -/
def deliver : List Frame → Status → ReturnValue → State → Result
  | [], st, v, s => .next (s.returned st v)
  | .dcm k :: callers, st, _, s => match s.dcm.phase with
    | .readCurrent =>
      .next ((s.setDcmPhase (if st = .success then .decide else .done st)).setFg (.dcm k :: callers))
    | .writeNew => .next ((s.setDcmPhase (afterWrite k st)).setFg (.dcm k :: callers))
    | .settle => .next ((s.setDcmPhase (.done .success)).setFg (.dcm k :: callers))
    | _ => .fault .brokenSequencer
  | .ensure .reading :: callers, st, _, s =>
    if st ≠ .success then deliver callers st .none s
    else if s.dcm.current = s.params.modeConfig then
      deliver callers .success (.mode s.dcm.current) { s with dcm := { s.dcm with prev := s.dcm.current } }
    else
      .next (issuePass .setMode s.dcm.port s.params.modeConfig (.ensure .switching :: callers)
        { s with dcm := { s.dcm with prev := s.dcm.current } })
  | .ensure .switching :: callers, st, _, s =>
    if st ≠ .success then deliver callers st .none s else deliver callers .success (.mode s.dcm.prev) s
  | .restore :: callers, st, _, s => deliver callers st .none s
  | .settings .ensuring page addr len payload :: callers, st, _, s =>
    if st ≠ .success then deliver callers st .none s
    else .next (issuePass .selectPage s.dcm.port page (.settings .paging page addr len payload :: callers) s)
  | .settings .paging page addr len payload :: callers, st, _, s =>
    if st ≠ .success then deliver callers st .none s
    else .next (issueWrite s.dcm.port addr len (.dmem payload) (.settings .writing page addr len payload :: callers) s)
  | .settings .writing page addr len payload :: callers, st, _, s =>
    if st ≠ .success then deliver callers st .none s
    else .next (issuePass .setMode s.dcm.port s.dcm.prev
      (.restore :: .settings .restoring page addr len payload :: callers) s)
  | .settings .restoring _ _ _ _ :: callers, st, _, s => deliver callers st .none s
  | .frp :: _, _, _, _ => .fault .brokenSequencer
  | .delay _ _ :: _, _, _, _ => .fault .brokenSequencer

/-- Row ReadCurrent (R190): DCMBUF takes a drawn value, `call READ_REG(p, reg, 1, (SCR, 2))`. -/
def dcmReadCurrent (k : Pass) (callers : List Frame) (s : State) : Result :=
  .next (issueRead s.dcm.port (passReg s.params k) 1 .internal (.dcm k :: callers) (drawDcmBuf s))

/-- Row Decide (R190, R191): `dcm_current <- SCR[4]`, the whole byte, and compare. -/
def dcmDecide (k : Pass) (s : State) : Result :=
  .next { s with dcm := { s.dcm with current := s.scr[4], phase := decideNext k s.scr[4] s.dcm.target } }

/-- Row WriteNew (R190): `call WRITE_REG(p, reg, 1, [dcm_target])`. -/
def dcmWriteNew (k : Pass) (callers : List Frame) (s : State) : Result :=
  .next (issueWrite s.dcm.port (passReg s.params k) 1 .internal (.dcm k :: callers) s)

/-- Row Settle (R190, R197): `call DELAY(19, 7 or 0)`. -/
def dcmSettle (k : Pass) (callers : List Frame) (s : State) : Result :=
  if settleTicks s.params s.dcm.current s.dcm.target = 0 then .next (s.setDcmPhase (.done .success))
  else .next (s.setFg (.delay (settleTicks s.params s.dcm.current s.dcm.target) s.tick :: .dcm k :: callers))

/-- One FG step of a DCM pass whose frame is on top of `callers` (R190). -/
def dcmStep (k : Pass) (callers : List Frame) (s : State) : Result :=
  match s.dcm.phase with
  | .idle => .fault .brokenSequencer
  | .readCurrent => dcmReadCurrent k callers s
  | .decide => dcmDecide k s
  | .writeNew => dcmWriteNew k callers s
  | .settle => dcmSettle k callers s
  | .done st => deliver callers st (passValue k st s) (s.setDcmPhase .idle)

/-- One FG step of a DELAY (R165): return once the ticks have gone by. -/
def delayStep (n : Half) (t0 : Tick) (callers : List Frame) (s : State) : Result :=
  if n.toNat ≤ s.elapsed t0 then deliver callers .success .none s else .next s

end Sys2Proof.Machine
end

