-- ==== Sys2Proof/Machine/Handler.lean ====
section
/-! DEFINITION. The three arms of the serial interrupt handler (41_transport_isr.md), each one atomic step (R252). -/

namespace Sys2Proof.Machine

/-- The port after IRQ_TXE hands over byte `b` (R150): the test for the end is made after the increment (D13). -/
def Port.handOver (port : Port) (b : Byte) : Port :=
  let q := periphWriteData port b
  if port.tx.cur + 1 = port.tx.len then
    { q with tx := { q.tx with cur := q.tx.cur + 1, txeie := false, tcie := true } }
  else { q with tx := { q.tx with cur := q.tx.cur + 1 } }

/-- IRQ_TXE p (R150): hand the next buffered byte to the peripheral. -/
def execIrqTxe (p : Byte) (s : State) : Result :=
  takeInterrupt p s Port.pendingTxe fun port =>
    match port.tx.buf[port.tx.cur.toNat]? with
    | none => .fault .outsideTxbuf
    | some b => .next (s.setPort p.toNat (port.handOver b))

/-- The port after IRQ_TC (R152): TC and TCIE cleared, Idle (D12, log 16). -/
def Port.completeTx (port : Port) : Port :=
  let q := periphClearTc port
  { q with tx := { q.tx with tcie := false, status := .idle } }

/-- IRQ_TC p (R152): the transfer ends. -/
def execIrqTc (p : Byte) (s : State) : Result :=
  takeInterrupt p s Port.pendingTc fun port => .next (s.setPort p.toNat port.completeTx)

/-- The port after IRQ_RXNE drops the transfer (R154): RXNEIE off and Idle; cursor, length, destination stay (D15). -/
def Port.dropRx (port : Port) : Port :=
  let q := (periphReadStatusData port).2.2
  { q with rx := { q.rx with rxneie := false, status := .idle } }

/-- The port after IRQ_RXNE stores a byte (R154): the cursor advances; the last byte ends the transfer. -/
def Port.countRx (port : Port) : Port :=
  let q := (periphReadStatusData port).2.2
  if port.rx.cur + 1 = port.rx.len then
    { q with rx := { q.rx with cur := q.rx.cur + 1, rxneie := false, status := .idle } }
  else { q with rx := { q.rx with cur := q.rx.cur + 1 } }

/-- Where the next received byte goes (R27, R154). -/
def Port.rxAddr (port : Port) : Nat := port.rx.dest.addr + port.rx.cur.toNat

/-- IRQ_RXNE p (R154): take one received byte. -/
def execIrqRxne (p : Byte) (s : State) : Result :=
  takeInterrupt p s Port.pendingRxne fun port =>
    if (periphReadStatusData port).1.any then .next (s.setPort p.toNat port.dropRx)
    else match writeByte s port.rx.dest.space port.rxAddr (periphReadStatusData port).2.1 with
      | .ok s1 => .next (s1.setPort p.toNat port.countRx)
      | .error f => .fault f

end Sys2Proof.Machine
end

