-- ==== Sys2Proof/Machine/Link.lean ====
section
/-! DEFINITION. The far side of the link (45_environment.md): the reference peripheral's own steps, the reference
device, and the execution of the wire command frames RD and WR, which is the device's (R223, R224, R226). -/

namespace Sys2Proof.Machine

/-- Key of `dev_reg[g][a]`. -/
def regKey (g : Nat) (a : Byte) : Nat := 256 * g + a.toNat

/-- The device's operating mode: MODE_REG is the same register in both pages (R220). -/
def Device.mode (c : Params) (d : Device) : Byte := memRead d.regs (regKey 0 c.modeReg)

/-- Read a device register in the current page, with the aliases of R220. -/
def Device.readReg (c : Params) (d : Device) (a : Byte) : Byte :=
  if a = c.pageReg then BitVec.ofNat 8 d.page
  else if a = c.modeReg then d.mode c
  else memRead d.regs (regKey d.page a)

/-- The settle time a store of mode `m` starts (R224): 19 into CONFIG, 7 out of it, else what was running. -/
def Device.settleAfter (c : Params) (d : Device) (m : Byte) : Nat :=
  if d.mode c ≠ c.modeConfig ∧ m = c.modeConfig then 19
  else if d.mode c = c.modeConfig ∧ m ≠ c.modeConfig then 7
  else d.settle

/-- Store a device register (R224): none where `CFG_ONLY` forbids it outside CONFIG. -/
def Device.writeReg (c : Params) (d : Device) (a v : Byte) : Option Device :=
  if c.cfgOnly.contains (d.page, a) && d.mode c != c.modeConfig then none
  else if a = c.pageReg then some { d with page := v.toNat % 2 }
  else if a = c.modeReg then
    some { d with regs := memWrite d.regs (regKey 0 a) v, settle := d.settleAfter c v }
  else some { d with regs := memWrite d.regs (regKey d.page a) v }

/-- The values of `n` registers from `a` on, addresses modulo 256 (R223). -/
def Device.readRegs (c : Params) (d : Device) (a : Byte) (n : Nat) : List Byte :=
  (List.range n).map fun i => d.readReg c (a + BitVec.ofNat 8 i)

/-- Store a frame's payload from `a` on, byte after byte, addresses modulo 256 (R224, log 12). -/
def Device.writeRegs (c : Params) (d : Device) (a : Byte) : List Byte → Option Device
  | [] => some d
  | v :: vs => match d.writeReg c a v with
    | none => none
    | some d1 => Device.writeRegs c d1 (a + 1) vs

/-- Queue a response (R223, R224, R226). -/
def Device.answer (d : Device) (bytes : List Byte) : Device := { d with out := d.out ++ bytes }

/-- The code of an error answer, `0x02` to `0x0A` (R226). -/
def errorCode (k : Fin 9) : Byte := BitVec.ofNat 8 (2 + k.val)

/-- Port `p` with another device. -/
def State.setDev (s : State) (p : Nat) (port : Port) (d : Device) : State := s.setPort p { port with dev := d }

/-- An error answer of the device with a drawn code (R226, log 11). -/
def deviceError (p : Nat) (port : Port) (s : State) : State :=
  { s.setDev p port (port.dev.answer [sentinel, errorCode (Config.freeErrorCode s.draws)]) with draws := s.draws + 1 }

/-- RD reg len (R101): executed by the device of the active port (R223); `len = 0` is answered with an error (R226). -/
def execRd (reg len : Byte) (s : State) : Result :=
  match s.ports[s.activePort]? with
  | none => .refused .noSuchPort
  | some port =>
    if len = 0 then .next (deviceError s.activePort port s)
    else .next (s.setDev s.activePort port
      (port.dev.answer (deviceReadOk :: len :: port.dev.readRegs s.params reg len.toNat)))

/-- WR reg len payload (R102): executed by the device of the active port (R224); `len = 0` and a forbidden store are
answered with an error and store nothing (R226). -/
def execWr (reg len : Byte) (payload : List Byte) (s : State) : Result :=
  match s.ports[s.activePort]? with
  | none => .refused .noSuchPort
  | some port =>
    if len = 0 then .next (deviceError s.activePort port s)
    else match port.dev.writeRegs s.params reg payload with
      | none => .next (deviceError s.activePort port s)
      | some d => .next (s.setDev s.activePort port (d.answer [sentinel, writeOkMark]))

/-- `TxLoad` (R214). -/
def Port.txLoad (port : Port) : Port :=
  match port.periph.tdr, port.periph.tsr with
  | some b, none => { port with periph := { port.periph with tsr := some b, tdr := none, txe := true } }
  | _, _ => port

/-- `TxShiftOut` (R215). -/
def Port.txShiftOut (port : Port) : Port :=
  match port.periph.tsr with
  | some b =>
    { port with periph := { port.periph with tsr := none, tc := port.periph.tc || port.periph.tdr.isNone },
                lineOut := port.lineOut ++ [b] }
  | none => port

/-- `RxArrive` (R216): a byte meeting an unread one sets ORE and is lost. -/
def Port.rxArrive (port : Port) (b : Byte) (fe pe ne : Bool) : Port :=
  if port.periph.rxne then
    { port with periph := { port.periph with errors := { port.periph.errors with ore := true } } }
  else
    { port with periph := { port.periph with
        rdr := b, rxne := true,
        errors := ⟨port.periph.errors.fe || fe, port.periph.errors.pe || pe, port.periph.errors.ore,
                   port.periph.errors.ne || ne⟩ } }

/-- `DevSend` (R225). -/
def Port.devSend (port : Port) (fe pe ne : Bool) : Port :=
  match port.dev.out with
  | [] => port
  | b :: out => ({ port with dev := { port.dev with out := out } } : Port).rxArrive b fe pe ne

/-- A step of the environment on port `p`; on a port that does not exist nothing happens (log 4). -/
def envStep (p : Nat) (f : Port → Port) (s : State) : State :=
  match s.ports[p]? with
  | none => s
  | some port => s.setPort p (f port)

/-- The bytes of a command the device has after taking `b` (R221): none when the byte is dropped. -/
def Device.collect (d : Device) (b : Byte) : Option (List Byte) :=
  if d.settle ≠ 0 then none
  else if d.cmd = [] ∧ b ≠ sync then none
  else some (d.cmd ++ [b])

end Sys2Proof.Machine
end

