-- ==== Sys2Proof/Machine/Dispatch.lean ====
section
/-! DEFINITION. One arm for each instruction, each a call of its meaning. -/

namespace Sys2Proof.Machine

-- The meaning of an instruction in a state (R113, R114, R101 to R104).
def exec (i : Instr) (s : State) : Host.Outcome State Fault Refusal :=
  match i with
  | .portInit p => Sys2Proof.Machine.execPortInit p s
  | .beginTx p src n => Sys2Proof.Machine.execBeginTx p src n s
  | .beginRx p dst n => Sys2Proof.Machine.execBeginRx p dst n s
  | .abortRx p => Sys2Proof.Machine.execAbortRx p s
  | .txStatus p => Sys2Proof.Machine.execTxStatus p s
  | .rxStatus p => Sys2Proof.Machine.execRxStatus p s
  | .computeTimeout b w q h n m => Sys2Proof.Machine.execComputeTimeout b w q h n m s
  | .delay n => Sys2Proof.Machine.execDelay n s
  | .readReg p addr len out => Sys2Proof.Machine.execReadReg p addr len out s
  | .writeReg p addr len payload => Sys2Proof.Machine.execWriteReg p addr len payload s
  | .selectPage p page => Sys2Proof.Machine.execSelectPage p page s
  | .getMode p => Sys2Proof.Machine.execGetMode p s
  | .setMode p mode => Sys2Proof.Machine.execSetMode p mode s
  | .ensureConfig p => Sys2Proof.Machine.execEnsureConfig p s
  | .restoreMode p mode => Sys2Proof.Machine.execRestoreMode p mode s
  | .settingsWrite p page addr len payload => Sys2Proof.Machine.execSettingsWrite p page addr len payload s
  | .irqTxe p => Sys2Proof.Machine.execIrqTxe p s
  | .irqTc p => Sys2Proof.Machine.execIrqTc p s
  | .irqRxne p => Sys2Proof.Machine.execIrqRxne p s
  | .tick => Sys2Proof.Machine.execTick s
  | .rd reg len => Sys2Proof.Machine.execRd reg len s
  | .wr reg len payload => Sys2Proof.Machine.execWr reg len payload s
  | .rsp status length => Sys2Proof.Machine.execRsp status length s
  | .rspErr code => Sys2Proof.Machine.execRspErr code s

end Sys2Proof.Machine
end

