-- ==== Sys2Proof/Machine/Agents.lean ====
section
/-! DEFINITION. The agents of R6 as steps: FG's turn with its fetches, the events, the peripheral and the device, the
outside world; and where a table word is placed so that the next step fetches it. `Machine/Step.lean` only calls
these. -/

namespace Sys2Proof.Machine

/-- The refusal of bytes that are no record (R112, log 1). -/
def refusalOf : DecodeError → Refusal
  | .truncated => .truncatedRecord
  | .unknownSelector => .unknownSelector
  | .badSync => .unknownSelector
  | .badOpcode => .unknownSelector

/-- FG idle (R62, R282): fetch the next host record and run it; with none, wait for one. -/
def fetchHost (s : State) : Result :=
  match s.commands with
  | [] => .next s
  | sel :: r => match decodeHost s.params.addrSize (sel :: r) with
    | .ok (i, rest) => exec i { s with commands := rest }
    | .error e => .refused (refusalOf e)

/-- Row Evaluate (R171): fetch the header at the response's destination and run it as RSP or RSP_ERR (log 19). -/
def frpEvaluate (s : State) : Result :=
  match responseHeader s with
  | .error f => .fault f
  | .ok bytes => match decodeResponse bytes with
    | .ok (i, _) => exec i s
    | .error _ => .fault .brokenSequencer

/-- One FG step of READ_REG or WRITE_REG whose frame is on top of `callers` (R171). -/
def frpStep (callers : List Frame) (s : State) : Result :=
  match s.frp.phase with
  | .idle => .fault .brokenSequencer
  | .compose => frpCompose s
  | .transmitting => frpTransmitting s
  | .armReceive => frpArmReceive s
  | .startupDelay => frpStartupDelay s
  | .awaitingResponse => frpAwaitingResponse s
  | .evaluate => frpEvaluate s
  | .done st => deliver callers st .none (s.setFrpPhase .idle)

/-- FG's turn: the innermost operation in progress takes one step, or the next one is fetched (R32, R81). -/
def fgTurn (s : State) : Result :=
  match s.fg with
  | [] => fetchHost s
  | .delay n t0 :: callers => delayStep n t0 callers s
  | .frp :: callers => frpStep callers s
  | .dcm k :: callers => dcmStep k callers s
  | .ensure _ :: _ => .fault .brokenSequencer
  | .restore :: _ => .fault .brokenSequencer
  | .settings _ _ _ _ _ :: _ => .fault .brokenSequencer

/-- An event fires (R114, R245): fetch its record and run it. -/
def fireEvent (record : List Byte) (s : State) : Result :=
  match decodeEvent record with
  | .ok (i, _) => exec i s
  | .error e => .refused (refusalOf e)

/-- The device of port `p` has a complete frame (R221): it executes it, or a fault injected by the environment answers
in its place, or no execution exists and it answers with an error (R226). -/
def runFrame (p : Nat) (cmd : List Byte) (fault : Option (Fin 9)) (s : State) : Result :=
  match s.ports[p]? with
  | none => .next s
  | some port => match fault with
    | some k => .next (s.setDev p port (port.dev.answer [sentinel, errorCode k]))
    | none => match decodeFrame cmd with
      | .ok (i, _) => exec i { s with activePort := p }
      | .error _ => .next (deviceError p port s)

/-- `DevTake(p)` (R221). -/
def devTake (p : Nat) (fault : Option (Fin 9)) (s : State) : Result :=
  match s.ports[p]? with
  | none => .next s
  | some port => match port.lineOut with
    | [] => .next s
    | b :: line => match port.dev.collect b with
      | none => .next (s.setPort p { port with lineOut := line })
      | some cmd =>
        if frameComplete cmd then
          runFrame p cmd fault (s.setPort p { port with lineOut := line, dev := { port.dev with cmd := [] } })
        else .next (s.setPort p { port with lineOut := line, dev := { port.dev with cmd := cmd } })

/-- The host stores a byte of its own memory, at any time, into a destination that is being filled too (R92, U25, R108,
log 25); past the top of DMEM the store has no meaning (R73). -/
def hostStore (a : Nat) (b : Byte) (s : State) : Result :=
  match writeByte s .dmem a b with
  | .ok t => .next t
  | .error f => .fault f

/-- The bring-up layer changes `cfg[p]`, never while an operation on the port is in flight (R43, R265, log 25). -/
def configure (p : Nat) (line : LineConfig) (s : State) : State :=
  match s.fg, s.ports[p]? with
  | [], some port =>
    if port.tx.status = .idle ∧ port.rx.status = .idle then s.setPort p { port with line := line } else s
  | _, _ => s

/-- A port's own registers after reset; its configuration, peripheral, wires and device are outside (R61, R282). -/
def Port.resetBlock (c : Params) (port : Port) : Port :=
  { port with tx := Transmit.reset (List.replicate c.txCap 0), rx := Receive.reset, initDone := false,
              txBegun := false, rxBegun := false }

/-- Reset of the block (R280, R60): nothing inside survives, nothing outside changes (R61, R282, log 24). -/
def State.resetBlock (s : State) : State :=
  { s with ports := s.ports.map (Port.resetBlock s.params), scr := Vector.replicate 5 0,
           frp := Frp.reset, dcm := Dcm.reset, fg := [], ret := none }

/-- The step of the agent that a move names (R6, R81). -/
def runMove (m : Move) (s : State) : Result :=
  match m with
  | .fg => fgTurn s
  | .event record => fireEvent record s
  | .txLoad p => .next (envStep p Port.txLoad s)
  | .txShiftOut p => .next (envStep p Port.txShiftOut s)
  | .rxArrive p b fe pe ne => .next (envStep p (fun port => port.rxArrive b fe pe ne) s)
  | .devTake p fault => devTake p fault s
  | .devSend p fe pe ne => .next (envStep p (fun port => port.devSend fe pe ne) s)
  | .hostStore a b => hostStore a b s
  | .configure p line => .next (configure p line s)
  | .resetBlock => .next s.resetBlock

/-- One step: the next move of the interleaving, or FG's turn when it names none (R81, log 4). -/
def nextStep (s : State) : Result :=
  match s.moves with
  | [] => fgTurn s
  | m :: rest => runMove m { s with moves := rest }

/-- How many bytes the frame at the head of `bytes` has (R110). -/
def frameLength (bytes : List Byte) : Nat :=
  match bytes with
  | _ :: op :: _ :: len :: _ => if op = opWrite then 4 + len.toNat else 4
  | _ => 4

/-- Place a host record where FG's next turn fetches it (log 5). -/
def placeHost (bytes : List Byte) (s : State) : State :=
  { s with fg := [], commands := bytes, moves := .fg :: s.moves }

/-- Place a command frame so that port 0's device takes its last byte next (log 5). -/
def placeFrame (bytes : List Byte) (s : State) : State :=
  match s.ports with
  | [] => s
  | port :: ports =>
    { s with ports := { port with lineOut := bytes.drop (bytes.length - 1),
                                  dev := { port.dev with cmd := bytes.take (bytes.length - 1), settle := 0 } } :: ports,
             moves := .devTake 0 none :: s.moves }

/-- Place a response header in WRESP with a WRITE_REG in Evaluate, whose next step fetches it (log 5). -/
def placeResponse (bytes : List Byte) (s : State) : State :=
  match bytes with
  | b0 :: b1 :: _ =>
    { s with fg := [.frp], frp := { s.frp with phase := .evaluate, kind := .write },
             scr := (s.scr.setIfInBounds 0 b0).setIfInBounds 1 b1, moves := .fg :: s.moves }
  | _ => s

/-- Place a table word where the very next step fetches it (log 5). -/
def placeWord (s : State) (nbits w : Nat) : State :=
  match tableChannel nbits w with
  | .host => placeHost (tableInput s.params.addrSize nbits w) s
  | .event => { s with moves := .event (tableInput s.params.addrSize nbits w) :: s.moves }
  | .frame => placeFrame ((tableInput s.params.addrSize nbits w).take (frameLength (tableInput s.params.addrSize nbits w))) s
  | .response => placeResponse (tableInput s.params.addrSize nbits w) s

end Sys2Proof.Machine
end

