-- ==== Sys2Proof/Machine/Step.lean ====
section
/-! DEFINITION. The step function, and the placing of a word where it fetches. -/

namespace Sys2Proof.Machine

/-- One step of the machine (R81). -/
def step (s : State) : Host.Outcome State Fault Refusal := nextStep s

/-- `s` with a word of spec/opcode_table.json placed where `step` fetches its next instruction (log 5). -/
def State.withFetchWord (s : State) (nbits w : Nat) : State := placeWord s nbits w

end Sys2Proof.Machine
end

