-- ==== Sys2Proof/Safety.lean ====
section
/-! DEFINITION. What counts as a sound state and a safe outcome, in the terms the statements use: the transport
invariants (R54 to R56), the sequencers' invariants (R32, R171, R190), the peripheral's (R212), the memories'
canonical form, the outgoing stream's (R58). -/

namespace Sys2Proof.Machine

/-- R54, the upper half of R56, and R22, R23 for the transmit half of a port, with a buffer of `cap` bytes; a transmit
in flight has a byte to send (R56). -/
abbrev Transmit.sound (cap : Nat) (t : Transmit) : Prop :=
  (t.status = .busy ↔ t.txeie ≠ t.tcie) ∧ (t.status = .idle ↔ t.txeie = false ∧ t.tcie = false) ∧
  (t.txeie = true → t.cur < t.len) ∧ (t.tcie = true → t.cur = t.len) ∧ (t.status = .busy → 0 < t.len) ∧
  t.cur ≤ t.len ∧ t.len.toNat ≤ cap ∧ t.buf.length = cap

/-- R55 and R27 for the receive half of a port; a destination in SCR has room for the transfer (R71). -/
abbrev Receive.sound (r : Receive) : Prop :=
  (r.status = .busy ↔ r.rxneie = true) ∧ (r.rxneie = true → r.cur < r.len) ∧ r.cur ≤ r.len ∧
  (r.dest.space = .scr → r.dest.addr + r.len.toNat ≤ 5)

/-- The lower half of R56: the length is at least 1 from the first successful BEGIN_TX on, and 0 before it. -/
abbrev Port.lengthSound (port : Port) : Prop :=
  (port.txBegun = true → 1 ≤ port.tx.len) ∧ (port.txBegun = false → port.tx.len = 0)

/-- The transport invariants hold on every port. -/
abbrev State.transportSound (s : State) : Prop :=
  ∀ port ∈ s.ports, port.tx.sound s.params.txCap ∧ port.lengthSound ∧ port.rx.sound

/-- The parameters and the number of ports are ones R5 allows. -/
abbrev State.legal (s : State) : Prop := s.params.legal ∧ 1 ≤ s.nPorts

/-- `TXE[p] = 1` exactly when `tdr[p]` is empty (R212). -/
abbrev State.periphSound (s : State) : Prop :=
  ∀ port ∈ s.ports, (port.periph.txe = true ↔ port.periph.tdr = none)

/-- DMEM and the device registers are in their canonical form. -/
abbrev State.memorySound (s : State) : Prop :=
  Memory.wf s.dmem = true ∧ ∀ port ∈ s.ports, Memory.wf port.dev.regs = true

/-- The bytes handed over so far in the transfer, in index order, end the outgoing stream (R58). -/
abbrev State.wireSound (s : State) : Prop :=
  ∀ port ∈ s.ports, port.tx.buf.take port.tx.cur.toNat <:+ port.wireOut

/-- What is left on the stack below a call is nothing, or a SETTINGS_WRITE in the stage that makes that call (R202). -/
def settingsOrNone (stage : SettingsStage) (callers : List Frame) : Bool :=
  match callers with
  | [] => true
  | .settings st _ _ _ _ :: rest => decide (st = stage) && rest.isEmpty
  | _ :: _ => false

/-- The callers a DCM pass can have (R170). -/
def callersOk (k : Pass) (callers : List Frame) : Bool :=
  match callers with
  | [] => true
  | .ensure .reading :: rest => decide (k = .getMode) && settingsOrNone .ensuring rest
  | .ensure .switching :: rest => decide (k = .setMode) && settingsOrNone .ensuring rest
  | .restore :: rest => decide (k = .setMode) && settingsOrNone .restoring rest
  | .settings st _ _ _ _ :: rest => decide (k = .selectPage) && decide (st = .paging) && rest.isEmpty
  | .delay _ _ :: _ => false
  | .frp :: _ => false
  | .dcm _ :: _ => false

/-- The phases a DCM pass can be in (R190). -/
def passPhaseOk (k : Pass) (ph : DcmPhase) : Bool :=
  match ph with
  | .idle => false
  | .readCurrent => true
  | .decide => true
  | .writeNew => decide (k ≠ .getMode)
  | .settle => decide (k = .setMode)
  | .done _ => true

/-- The phases in which a DCM pass waits for a READ_REG or WRITE_REG it called (R190). -/
def passCallsFrp (k : Pass) (ph : DcmPhase) : Bool :=
  match ph with
  | .readCurrent => true
  | .writeNew => decide (k ≠ .getMode)
  | _ => false

/-- The callers a READ_REG or WRITE_REG can have, with the DCM's phase (R170, R190). -/
def frpCallersOk (callers : List Frame) (d : DcmPhase) : Bool :=
  match callers with
  | .dcm k :: rest => passCallsFrp k d && callersOk k rest
  | rest => decide (d = .idle) && settingsOrNone .writing rest

/-- The callers a DELAY can have, with the DCM's phase (R170, R190): none, or a SET_MODE that settles. -/
def delayCallersOk (callers : List Frame) (d : DcmPhase) : Bool :=
  match callers with
  | [] => decide (d = .idle)
  | .dcm k :: rest => decide (k = .setMode) && decide (d = .settle) && callersOk k rest
  | _ :: _ => false

/-- FG's stack is a path of the call graph of R170, and each sequencer's phase fits its place in it (R30, R33). -/
def stackOk (fg : List Frame) (f : FrpPhase) (d : DcmPhase) : Bool :=
  match fg with
  | [] => decide (f = .idle) && decide (d = .idle)
  | .delay _ _ :: callers => decide (f = .idle) && delayCallersOk callers d
  | .frp :: callers => decide (f ≠ .idle) && frpCallersOk callers d
  | .dcm k :: callers => decide (f = .idle) && passPhaseOk k d && callersOk k callers
  | .ensure _ :: _ => false
  | .restore :: _ => false
  | .settings _ _ _ _ _ :: _ => false

/-- The phases of the FRP in which its port has been validated and is used (R171). -/
def FrpPhase.running : FrpPhase → Bool
  | .idle => false
  | .done _ => false
  | _ => true

/-- The FRP's registers while it runs (R31): its port exists, the length is 1..255, the internal form has length 1
(R172, R178), and at most two retries have been made (R182). -/
abbrev Frp.sound (n : Nat) (r : Frp) : Prop :=
  (r.phase.running = true → r.port.toNat < n ∧ r.len ≠ 0 ∧ (r.buf = .internal → r.len = 1)) ∧ r.attempt ≤ maxRetries

/-- The sequencers' invariants. -/
abbrev State.sequencerSound (s : State) : Prop :=
  stackOk s.fg s.frp.phase s.dcm.phase = true ∧ s.frp.sound s.nPorts

/-- A sound state. -/
abbrev State.sound (s : State) : Prop := s.transportSound ∧ s.sequencerSound

/-- The stops that the spec itself asks for: a buffer past the top of DMEM (R92), a record that is none (R112), an
illegal line configuration (R160), a second or a late PORT_INIT (R146). -/
def Result.specStop : Result → Bool
  | .next _ => true
  | .fault .outsideDmem => true
  | .fault _ => false
  | .refused .unknownSelector => true
  | .refused .truncatedRecord => true
  | .refused .illegalLineConfig => true
  | .refused .secondPortInit => true
  | .refused .latePortInit => true
  | .refused _ => false

end Sys2Proof.Machine
end

