-- ==== Sys2Proof/Certificates/Slice0/Obligations.lean ====
section
/-! DEFINITION. The statements for the provers, in the order of OBLIGATIONS.json: encodings, a step and its decoded
instruction, the transport operations, the clock, the handler arms, the composite operations' issue, the rows of R171
and R190, the device and the peripheral, reset, and the invariants. -/

section
open Sys2Proof Sys2Proof.Machine

/-! ### Encodings -/

/-- Decoding an encoded well-formed instruction gives it back, with the bytes after it (R100 to R104, R112 to R114;
the packing of a record, with address operands of `size` bytes, is the model's, log 1). -/
def Obligations.DecodeEncode : Prop :=
  ∀ (size : Nat) (i : Instr) (rest : List Byte), i.wf size = true →
    decodeOn size i.channel (encode size i ++ rest) = .ok (i, rest)

/-- A decoder answers an instruction of its own channel, only for that instruction's encoding: no bit is dropped (R100
to R104, R112 to R114). Only a frame with `len = 0` is decoded without being well formed: the device must answer it
(R221, R226). -/
def Obligations.EncodeDecode : Prop :=
  ∀ (size : Nat) (c : Channel) (bytes rest : List Byte) (i : Instr), decodeOn size c bytes = .ok (i, rest) →
    i.channel = c ∧ bytes = encode size i ++ rest ∧ (c ≠ .frame → i.wf size = true)

/-- Words written out from R101 to R104, R113, R114 and the examples of R172, R178 decode to what they stand for, and
every two-byte response header decodes (R111). -/
def Obligations.SpecWordsDecode : Prop :=
  decodeFrame [0xAA, 0x01, 0x3D, 0x01] = .ok (.rd 0x3D 0x01, []) ∧
  decodeFrame [0xAA, 0x00, 0x3B, 0x01, 0x80] = .ok (.wr 0x3B 0x01 [0x80], []) ∧
  (∀ size, decodeHost size [0x24, 0x00, 0x0C] = .ok (.restoreMode 0x00 0x0C, [])) ∧
  decodeEvent [0x83] = .ok (.tick, []) ∧
  ∀ b0 b1 : Byte, decodeResponse [b0, b1] = .ok (if b0 = 0xEE then .rspErr b1 else .rsp b0 b1, [])

/-- A selector or an event code outside the tables of R113 and R114 is refused (R112). -/
def Obligations.UnknownSelectorsRefused : Prop :=
  (∀ (s : State) (sel : Byte) (r : List Byte), s.fg = [] → s.commands = sel :: r →
    sel ∉ ([0x00, 0x01, 0x02, 0x03, 0x04, 0x05, 0x06, 0x07, 0x10, 0x11, 0x20, 0x21, 0x22, 0x23, 0x24, 0x25] :
      List Byte) →
    fgTurn s = .refused .unknownSelector) ∧
  ∀ (s : State) (code : Byte) (r : List Byte), code ∉ ([0x80, 0x81, 0x82, 0x83] : List Byte) →
    runMove (.event (code :: r)) s = .refused .unknownSelector

/-! ### A step runs the decoded instruction -/

/-- FG idle, its turn: the record at the head of the command stream runs, and the stream moves past it (R62, R120;
placing records in a stream is the model's, log 5). -/
def Obligations.StepRunsHostRecord : Prop :=
  ∀ (s : State) (i : Instr) (rest : List Byte), i.wf s.params.addrSize = true → i.channel = .host → s.fg = [] →
    s.commands = encode s.params.addrSize i ++ rest →
    (s.moves = [] → step s = exec i { s with commands := rest }) ∧
    ∀ ms : List Move, s.moves = .fg :: ms → step s = exec i { s with commands := rest, moves := ms }

/-- An event that fires runs the arm of its record, whatever FG is doing (R114, R245, R252; log 4). -/
def Obligations.StepRunsEvent : Prop :=
  ∀ (s : State) (i : Instr) (tail : List Byte) (ms : List Move), i.wf s.params.addrSize = true →
    i.channel = .event → s.moves = .event (encode s.params.addrSize i ++ tail) :: ms → step s = exec i { s with moves := ms }

/-- The byte that completes a command frame makes the device of that port execute it, with its collected bytes
emptied (R221, R223, R224; `activePort` is the model's, log 20). -/
def Obligations.StepRunsFrame : Prop :=
  ∀ (s : State) (i : Instr) (p : Nat) (port : Port) (b : Byte) (line : List Byte) (ms : List Move),
    i.wf s.params.addrSize = true → i.channel = .frame → s.moves = .devTake p none :: ms → s.ports[p]? = some port →
    port.dev.settle = 0 → port.lineOut = b :: line → port.dev.cmd ++ [b] = encode s.params.addrSize i →
    step s = exec i { s with moves := ms, activePort := p,
                             ports := s.ports.set p { port with lineOut := line, dev := { port.dev with cmd := [] } } }

/-- FG in Evaluate, its turn: the header at the response's destination is run as RSP or RSP_ERR (R103, R104, R171;
running a header as an instruction is the model's, log 19). -/
def Obligations.StepRunsResponseHeader : Prop :=
  ∀ (s : State) (i : Instr) (callers : List Frame), i.wf s.params.addrSize = true → i.channel = .response →
    s.fg = .frp :: callers → s.frp.phase = .evaluate → responseHeader s = .ok (encode s.params.addrSize i) →
    (s.moves = [] → step s = exec i s) ∧
    ∀ ms : List Move, s.moves = .fg :: ms → step s = exec i { s with moves := ms }

/-! ### Transport operations -/

/-- PORT_INIT: the ten registers of R146 take their reset values, once, before any transfer on the port; a second one is
refused, and so is a first one after a BEGIN_TX or a BEGIN_RX has succeeded. The bits that remember them, and that
operations which write none of the ten registers do not count, are the model's (log 14). -/
def Obligations.PortInitResets : Prop :=
  ∀ (s : State) (p : Byte) (port : Port), s.fg = [] → s.ports[p.toNat]? = some port →
    (port.initDone = false → port.txBegun = false → port.rxBegun = false → exec (.portInit p) s =
      .next { s with ports := s.ports.set p.toNat { port with tx := ⟨port.tx.buf, 0, 0, .idle, false, false⟩,
                                                              rx := ⟨⟨.dmem, 0⟩, 0, 0, .idle, false⟩,
                                                              initDone := true },
                     ret := some ⟨.success, .none⟩ }) ∧
    (port.initDone = true → exec (.portInit p) s = .refused .secondPortInit) ∧
    (port.initDone = false → port.txBegun = true ∨ port.rxBegun = true → exec (.portInit p) s = .refused .latePortInit)

/-- BEGIN_TX: a null source, no bytes or too many give InvalidParam, and with legal operands a Busy port gives Error, each
with nothing but the returned status changed; on an idle port the bytes at `src` are copied to the front of the buffer,
the length and cursor are set, the status is Busy, TXEIE is on, and nothing else of the block changes (R140, R242, R87;
`txBegun` is the model's, log 14). A source that is not wholly inside DMEM has no meaning (R92, log 13), and is met only
after the busy check (log 26). -/
def Obligations.BeginTxStarts : Prop :=
  ∀ (s : State) (p : Byte) (src : Nat) (n : Half) (port : Port), s.fg = [] → s.ports[p.toNat]? = some port →
    (src = 0 ∨ n = 0 ∨ s.params.txCap < n.toNat →
      exec (.beginTx p src n) s = .next { s with ret := some ⟨.invalidParam, .none⟩ }) ∧
    (src ≠ 0 → n ≠ 0 → n.toNat ≤ s.params.txCap → port.tx.status = .busy →
      exec (.beginTx p src n) s = .next { s with ret := some ⟨.error, .none⟩ }) ∧
    (src ≠ 0 → n ≠ 0 → n.toNat ≤ s.params.txCap → port.tx.status = .idle → 2 ^ s.params.addrW < src + n.toNat →
      exec (.beginTx p src n) s = .fault .outsideDmem) ∧
    (src ≠ 0 → n ≠ 0 → n.toNat ≤ s.params.txCap → port.tx.status = .idle → src + n.toNat ≤ 2 ^ s.params.addrW →
      exec (.beginTx p src n) s =
        .next { s with ports := s.ports.set p.toNat
                         { port with tx := { port.tx with
                             buf := (List.range n.toNat).map (fun i => memRead s.dmem (src + i)) ++
                                      port.tx.buf.drop n.toNat,
                             len := n, cur := 0, status := .busy, txeie := true },
                                     txBegun := true },
                       ret := some ⟨.success, .none⟩ })

/-- BEGIN_RX: a null destination or no bytes give InvalidParam, and with legal operands a Busy port gives Error, each with
nothing but the returned status changed; on an idle port the destination is bound, the cursor is 0, the status is Busy,
RXNEIE is on, and nothing else of the block changes, the destination's bytes included (R142, R242, R87; `rxBegun` is the
model's, log 14). -/
def Obligations.BeginRxStarts : Prop :=
  ∀ (s : State) (p : Byte) (dst : Nat) (n : Half) (port : Port), s.fg = [] → s.ports[p.toNat]? = some port →
    (dst = 0 ∨ n = 0 → exec (.beginRx p dst n) s = .next { s with ret := some ⟨.invalidParam, .none⟩ }) ∧
    (dst ≠ 0 → n ≠ 0 → port.rx.status = .busy →
      exec (.beginRx p dst n) s = .next { s with ret := some ⟨.error, .none⟩ }) ∧
    (dst ≠ 0 → n ≠ 0 → port.rx.status = .idle →
      exec (.beginRx p dst n) s =
        .next { s with ports := s.ports.set p.toNat { port with rx := ⟨⟨.dmem, dst⟩, n, 0, .busy, true⟩,
                                                                rxBegun := true },
                       ret := some ⟨.success, .none⟩ })

/-- ABORT_RX, whatever the progress: the interrupt is off, the receive state is reset, memory and the transmit half are
left alone; a port that is none gives InvalidParam (R144). That the cursor, the length and the destination are cleared,
and the two statuses returned, are the spec's own choices (D15, D32). -/
def Obligations.AbortRxStops : Prop :=
  ∀ (s : State) (p : Byte), s.fg = [] →
    (∀ port, s.ports[p.toNat]? = some port →
      exec (.abortRx p) s =
        .next { s with ports := s.ports.set p.toNat { port with rx := ⟨⟨.dmem, 0⟩, 0, 0, .idle, false⟩ },
                       ret := some ⟨.success, .none⟩ }) ∧
    (s.ports.length ≤ p.toNat → exec (.abortRx p) s = .next { s with ret := some ⟨.invalidParam, .none⟩ })

/-- TX_STATUS and RX_STATUS return the port's two status bits, or InvalidParam for a port that is none, and change
nothing else (R145, R147). -/
def Obligations.StatusesRead : Prop :=
  ∀ (s : State) (p : Byte), s.fg = [] →
    (∀ port, s.ports[p.toNat]? = some port →
      exec (.txStatus p) s = .next { s with ret := some ⟨.success, .transfer port.tx.status⟩ } ∧
      exec (.rxStatus p) s = .next { s with ret := some ⟨.success, .transfer port.rx.status⟩ }) ∧
    (s.ports.length ≤ p.toNat →
      exec (.txStatus p) s = .next { s with ret := some ⟨.invalidParam, .none⟩ } ∧
      exec (.rxStatus p) s = .next { s with ret := some ⟨.invalidParam, .none⟩ })

/-- A port operand that names no port: a transport operation returns InvalidParam at once; READ_REG, WRITE_REG and the
DCM operations return it at FG's next turn, with the sequencer back in Idle. No port, no memory and no working register
is touched (R242, R171, R190). -/
def Obligations.BadPortRejected : Prop :=
  ∀ (s : State) (p x y z : Byte) (a : Nat) (n : Half), s.fg = [] → s.ports.length ≤ p.toNat →
    (∀ i ∈ [Instr.portInit p, .beginTx p a n, .beginRx p a n, .abortRx p, .txStatus p, .rxStatus p],
      exec i s = .next { s with ret := some ⟨.invalidParam, .none⟩ }) ∧
    (∀ i ∈ [Instr.readReg p x y a, .writeReg p x y a], ∃ t, exec i s = .next t ∧
      fgTurn t = .next { s with frp := { s.frp with phase := .idle }, ret := some ⟨.invalidParam, .none⟩ }) ∧
    (∀ i ∈ [Instr.selectPage p x, .getMode p, .setMode p x, .ensureConfig p, .restoreMode p x,
            .settingsWrite p x y z a], ∃ t, exec i s = .next t ∧
      fgTurn t = .next { s with dcm := { s.dcm with phase := .idle }, ret := some ⟨.invalidParam, .none⟩ })

/-! ### The Timeout Calculator, DELAY and TICK -/

/-- COMPUTE_TIMEOUT returns the exact rational of R160 for a legal configuration and is refused for any other; it
changes nothing but what is returned (R160, R161). The refusal, of a parity operand above 1 too, is D27; stop bits in
halves and the margin as a fraction are log 17; that the number comes with Success is log 21. -/
def Obligations.ComputeTimeoutValue : Prop :=
  ∀ (s : State) (baud word parity halves len : Nat) (m : Margin), s.fg = [] →
    (baud ≠ 0 → (word = 8 ∨ word = 9) → parity ≤ 1 → (halves = 1 ∨ halves = 2 ∨ halves = 4) →
      exec (.computeTimeout baud word parity halves len m) s =
        .next { s with ret := some ⟨.success, .millis ((1000 / (baud : Rat)) *
          (8 + ((word : Rat) - 8) + (parity : Rat) + (halves : Rat) / 2) * (len : Rat) * m.value)⟩ }) ∧
    (baud = 0 ∨ (word ≠ 8 ∧ word ≠ 9) ∨ 1 < parity ∨ (halves ≠ 1 ∧ halves ≠ 2 ∧ halves ≠ 4) →
      exec (.computeTimeout baud word parity halves len m) s = .refused .illegalLineConfig)

/-- DELAY: `DELAY 0` returns in the step that issues it; any other keeps the tick at entry, and each poll `k` ticks
later, a wrap of the counter included, returns Success exactly if `n <= k` and otherwise changes nothing (R164, R165,
R310). Issue, sample and first test as one step are log 6, the returned status cleared at issue is log 21. -/
def Obligations.DelayWaits : Prop :=
  (∀ (s : State) (n : Half), s.fg = [] →
    (n = 0 → exec (.delay n) s = .next { s with ret := some ⟨.success, .none⟩ }) ∧
    (n ≠ 0 → exec (.delay n) s = .next { s with fg := [.delay n s.tick], ret := none })) ∧
  ∀ (s : State) (n : Half) (t0 : Tick) (k : Nat), s.fg = [.delay n t0] → k < 2 ^ 32 →
    s.tick = t0 + BitVec.ofNat 32 k →
    (k < n.toNat → fgTurn s = .next s) ∧
    (n.toNat ≤ k → fgTurn s = .next { s with fg := [], ret := some ⟨.success, .none⟩ })

/-- TICK advances the counter modulo `2^32`, and with it each device's settle count goes down to at least 0; nothing
else changes (R210, R225). -/
def Obligations.TickCounts : Prop :=
  ∀ s : State, exec .tick s =
    .next { s with tick := s.tick + 1,
                   ports := s.ports.map fun port => { port with dev := { port.dev with settle := port.dev.settle - 1 } } }

/-! ### The handler arms -/

/-- IRQ_TXE when pending: the byte at the cursor goes to the peripheral and to `wire_out`, the cursor advances, and the
last byte switches TXEIE off and TCIE on; the status stays (R150, R75). What the peripheral does is the reference one's
(R213, log 12), and the switch in the last byte's own invocation is D13. -/
def Obligations.IrqTxeHandsOver : Prop :=
  ∀ (s : State) (p : Byte) (port : Port) (b : Byte), s.ports[p.toNat]? = some port →
    port.tx.txeie = true → port.periph.txe = true → port.tx.buf[port.tx.cur.toNat]? = some b →
    exec (.irqTxe p) s =
      .next { s with ports := s.ports.set p.toNat { port with
        tx := { port.tx with cur := port.tx.cur + 1,
                             txeie := decide (port.tx.cur + 1 ≠ port.tx.len),
                             tcie := port.tx.tcie || decide (port.tx.cur + 1 = port.tx.len) },
        periph := { port.periph with tdr := some b, txe := false, tc := false },
        wireOut := port.wireOut ++ [b] } }

/-- IRQ_TC when pending: TC is cleared, TCIE is cleared (D12, log 16), the status is Idle; cursor, length and buffer
stay (R152, R218). -/
def Obligations.IrqTcEnds : Prop :=
  ∀ (s : State) (p : Byte) (port : Port), s.ports[p.toNat]? = some port →
    port.tx.tcie = true → port.periph.tc = true →
    exec (.irqTc p) s =
      .next { s with ports := s.ports.set p.toNat { port with
        tx := { port.tx with tcie := false, status := .idle },
        periph := { port.periph with tc := false } } }

/-- IRQ_RXNE when pending without a line error: the byte goes to the destination at the cursor, in DMEM or in SCR, the
cursor advances, and the last byte of the transfer switches RXNEIE off and the status to Idle; RXNE is cleared and the
pair joins the incoming stream. A store outside DMEM has no meaning (R154, R217, R92, log 13). -/
def Obligations.IrqRxneStores : Prop :=
  ∀ (s : State) (p : Byte) (port : Port), s.ports[p.toNat]? = some port →
    port.rx.rxneie = true → port.periph.rxne = true → port.periph.errors = ⟨false, false, false, false⟩ →
    let a := port.rx.dest.addr + port.rx.cur.toNat
    let last := decide (port.rx.cur + 1 = port.rx.len)
    let ports := s.ports.set p.toNat
      { port with rx := { port.rx with cur := port.rx.cur + 1, rxneie := !last,
                                       status := if last then .idle else port.rx.status },
                  periph := { port.periph with rxne := false },
                  wireIn := port.wireIn ++ [(port.periph.errors, port.periph.rdr)] }
    (port.rx.dest.space = .dmem → a < 2 ^ s.params.addrW →
      exec (.irqRxne p) s = .next { s with ports := ports, dmem := memWrite s.dmem a port.periph.rdr }) ∧
    (port.rx.dest.space = .dmem → 2 ^ s.params.addrW ≤ a → exec (.irqRxne p) s = .fault .outsideDmem) ∧
    (port.rx.dest.space = .scr → a < 5 →
      exec (.irqRxne p) s = .next { s with ports := ports, scr := s.scr.setIfInBounds a port.periph.rdr })

/-- IRQ_RXNE when pending with any line error flag: the byte is dropped, RXNEIE is off, the status is Idle, the flags
are cleared; cursor, length, destination and memory stay (R154, R217). -/
def Obligations.IrqRxneDrops : Prop :=
  ∀ (s : State) (p : Byte) (port : Port), s.ports[p.toNat]? = some port →
    port.rx.rxneie = true → port.periph.rxne = true → port.periph.errors ≠ ⟨false, false, false, false⟩ →
    exec (.irqRxne p) s =
      .next { s with ports := s.ports.set p.toNat { port with
        rx := { port.rx with rxneie := false, status := .idle },
        periph := { port.periph with rxne := false, errors := ⟨false, false, false, false⟩ },
        wireIn := port.wireIn ++ [(port.periph.errors, port.periph.rdr)] } }

/-- An arm whose event is not pending, flag or enable being 0, or whose port does not exist, runs nothing (R245: an arm
never runs unless pending; that the step then changes nothing is the model's, log 15). -/
def Obligations.NotPendingRunsNothing : Prop :=
  ∀ (s : State) (p : Byte),
    ((∀ port, s.ports[p.toNat]? = some port → (port.tx.txeie && port.periph.txe) = false) →
      exec (.irqTxe p) s = .next s) ∧
    ((∀ port, s.ports[p.toNat]? = some port → (port.tx.tcie && port.periph.tc) = false) →
      exec (.irqTc p) s = .next s) ∧
    ((∀ port, s.ports[p.toNat]? = some port → (port.rx.rxneie && port.periph.rxne) = false) →
      exec (.irqRxne p) s = .next s)

/-- What no arm touches: the sequencers, FG's stack, what was returned, the clock, the parameters, every other port, and
every byte of DMEM and SCR but the one IRQ_RXNE's destination and cursor give (R20, R76, R252, R256). -/
def Obligations.SerialArmsFrame : Prop :=
  ∀ (s t : State) (p : Byte) (i : Instr), i ∈ [Instr.irqTxe p, .irqTc p, .irqRxne p] → exec i s = .next t →
    t.frp = s.frp ∧ t.dcm = s.dcm ∧ t.fg = s.fg ∧ t.ret = s.ret ∧ t.tick = s.tick ∧ t.params = s.params ∧
    t.commands = s.commands ∧ t.moves = s.moves ∧ t.draws = s.draws ∧ t.activePort = s.activePort ∧
    (∀ q, q ≠ p.toNat → t.ports[q]? = s.ports[q]?) ∧
    (∀ a, (i ≠ .irqRxne p ∨ ∀ port, s.ports[p.toNat]? = some port → port.rx.dest.space ≠ .dmem ∨ a ≠ port.rxAddr) →
      memRead t.dmem a = memRead s.dmem a) ∧
    ∀ k, (i ≠ .irqRxne p ∨ ∀ port, s.ports[p.toNat]? = some port → port.rx.dest.space ≠ .scr ∨ k ≠ port.rxAddr) →
      t.scr[k]? = s.scr[k]?

/-- The order of a receive arm and a transmit arm changes no final state: what one order leads to, the other does, both
ways (R250). -/
def Obligations.ArmOrderUnobservable : Prop :=
  ∀ (s u : State) (p q : Byte) (i : Instr), i ∈ [Instr.irqTxe q, .irqTc q] →
    ((∃ t, exec (.irqRxne p) s = .next t ∧ exec i t = .next u) ↔ ∃ t, exec i s = .next t ∧ exec (.irqRxne p) t = .next u)

/-! ### Issue of the composite operations -/

/-- READ_REG and WRITE_REG with legal operands: the FRP takes the operands, attempt 0, phase Compose; WRITE_REG draws
the two bytes of WRESP; nothing else changes (R171 row Idle, R172, R178, R35; `ret` is the model's, log 21). -/
def Obligations.RegisterAccessesIssue : Prop :=
  ∀ (s : State) (p addr len : Byte) (a : Nat), s.fg = [] → p.toNat < s.ports.length → a ≠ 0 → len ≠ 0 →
    exec (.readReg p addr len a) s =
      .next { s with frp := { s.frp with phase := .compose, kind := .read, port := p, addr := addr, len := len,
                                         buf := .dmem a, attempt := 0 },
                     fg := [.frp], ret := none } ∧
    ∃ d0 d1 : Byte, exec (.writeReg p addr len a) s =
      .next { s with frp := { s.frp with phase := .compose, kind := .write, port := p, addr := addr, len := len,
                                         buf := .dmem a, attempt := 0 },
                     scr := (s.scr.setIfInBounds 0 d0).setIfInBounds 1 d1, draws := s.draws + 2,
                     fg := [.frp], ret := none }

/-- Illegal operands on an existing port: a null buffer or a length 0 of READ_REG and WRITE_REG, a page outside `{0, 1}`
and a mode outside MODE_SET return InvalidParam at FG's next turn, with nothing else changed (R172, R178, R192, R196,
R200, R241). -/
def Obligations.IllegalOperandsRejected : Prop :=
  ∀ (s : State) (p addr len x : Byte) (a : Nat), s.fg = [] →
    (a = 0 ∨ len = 0 → ∀ i ∈ [Instr.readReg p addr len a, .writeReg p addr len a], ∃ t, exec i s = .next t ∧
      fgTurn t = .next { s with frp := { s.frp with phase := .idle }, ret := some ⟨.invalidParam, .none⟩ }) ∧
    (x ≠ 0 → x ≠ 1 → ∃ t, exec (.selectPage p x) s = .next t ∧
      fgTurn t = .next { s with dcm := { s.dcm with phase := .idle }, ret := some ⟨.invalidParam, .none⟩ }) ∧
    (x ∉ s.params.modeSet → ∀ i ∈ [Instr.setMode p x, .restoreMode p x], ∃ t, exec i s = .next t ∧
      fgTurn t = .next { s with dcm := { s.dcm with phase := .idle }, ret := some ⟨.invalidParam, .none⟩ })

/-- SELECT_PAGE, GET_MODE and SET_MODE with legal operands: the DCM takes port and target and goes to ReadCurrent;
nothing else changes (R190 row Idle, R192, R194, R196). -/
def Obligations.PassesIssue : Prop :=
  ∀ (s : State) (p x : Byte), s.fg = [] → p.toNat < s.ports.length →
    (x = 0 ∨ x = 1 → exec (.selectPage p x) s =
      .next { s with dcm := { s.dcm with phase := .readCurrent, port := p, target := x }, fg := [.dcm .selectPage],
                     ret := none }) ∧
    exec (.getMode p) s =
      .next { s with dcm := { s.dcm with phase := .readCurrent, port := p }, fg := [.dcm .getMode], ret := none } ∧
    (x ∈ s.params.modeSet → exec (.setMode p x) s =
      .next { s with dcm := { s.dcm with phase := .readCurrent, port := p, target := x }, fg := [.dcm .setMode],
                     ret := none })

/-- ENSURE_CONFIG and SETTINGS_WRITE begin with GET_MODE, RESTORE_MODE with SET_MODE of its operand; SETTINGS_WRITE
looks at none of its other operands yet (R198, R200, R202, R170; that a call's first step is part of the caller's
issuing step is the model's, log 6). -/
def Obligations.SequencesIssue : Prop :=
  ∀ (s : State) (p page addr len x : Byte) (a : Nat), s.fg = [] → p.toNat < s.ports.length →
    exec (.ensureConfig p) s =
      .next { s with dcm := { s.dcm with phase := .readCurrent, port := p },
                     fg := [.dcm .getMode, .ensure .reading], ret := none } ∧
    (x ∈ s.params.modeSet → exec (.restoreMode p x) s =
      .next { s with dcm := { s.dcm with phase := .readCurrent, port := p, target := x },
                     fg := [.dcm .setMode, .restore], ret := none }) ∧
    exec (.settingsWrite p page addr len a) s =
      .next { s with dcm := { s.dcm with phase := .readCurrent, port := p },
                     fg := [.dcm .getMode, .ensure .reading, .settings .ensuring page addr len a], ret := none }

/-! ### The rows of R171 -/

/-- Row Compose: an RD frame for a read, a WR frame for a write, its payload read from DMEM now or taken from the DCM;
then BEGIN_TX's outcome: too long is InvalidParam, Busy is Error, else the frame is in the buffer and FG waits in
Transmitting (R171, R101, R102, R107, R108, R179, R183; `txBegun` is the model's, log 14). A payload that is not wholly
inside DMEM has no meaning (R73, R92, log 13). -/
def Obligations.FrpComposes : Prop :=
  ∀ (s : State) (callers : List Frame) (port : Port), s.fg = .frp :: callers → s.frp.phase = .compose →
    s.ports[s.frp.port.toNat]? = some port →
    (∀ bytes : List Byte,
      ((s.frp.kind = .read ∧ bytes = [0xAA, 0x01, s.frp.addr, s.frp.len]) ∨
       (s.frp.kind = .write ∧ s.frp.buf = .internal ∧
          bytes = [0xAA, 0x00, s.frp.addr, s.frp.len, s.dcm.target]) ∨
       (∃ a, s.frp.kind = .write ∧ s.frp.buf = .dmem a ∧ a + s.frp.len.toNat ≤ 2 ^ s.params.addrW ∧
          bytes = 0xAA :: 0x00 :: s.frp.addr :: s.frp.len ::
            (List.range s.frp.len.toNat).map fun i => memRead s.dmem (a + i))) →
      (s.params.txCap < bytes.length →
        fgTurn s = .next { s with frp := { s.frp with phase := .done .invalidParam } }) ∧
      (bytes.length ≤ s.params.txCap → port.tx.status = .busy →
        fgTurn s = .next { s with frp := { s.frp with phase := .done .error } }) ∧
      (bytes.length ≤ s.params.txCap → port.tx.status = .idle →
        fgTurn s = .next { s with frp := { s.frp with phase := .transmitting },
                                  ports := s.ports.set s.frp.port.toNat
                                    { port with tx := { port.tx with
                                        buf := bytes ++ port.tx.buf.drop bytes.length,
                                        len := BitVec.ofNat 16 bytes.length,
                                        cur := 0, status := .busy, txeie := true },
                                                txBegun := true } })) ∧
    ∀ a, s.frp.kind = .write → s.frp.buf = .dmem a → 2 ^ s.params.addrW < a + s.frp.len.toNat →
      fgTurn s = .fault .outsideDmem

/-- Rows Transmitting and Done: FG repeats the test while the transmit is Busy, goes to ArmReceive when it is Idle; a
done operation of the host returns its status and the sequencer is Idle (R171, R167, R185). -/
def Obligations.FrpWaitsAndReturns : Prop :=
  (∀ (s : State) (callers : List Frame) (port : Port), s.fg = .frp :: callers → s.frp.phase = .transmitting →
    s.ports[s.frp.port.toNat]? = some port →
    (port.tx.status = .busy → fgTurn s = .next s) ∧
    (port.tx.status = .idle → fgTurn s = .next { s with frp := { s.frp with phase := .armReceive } })) ∧
  ∀ (s : State) (st : Status), s.fg = [.frp] → s.frp.phase = .done st →
    fgTurn s = .next { s with frp := { s.frp with phase := .idle }, fg := [], ret := some ⟨st, .none⟩ }

/-- Row ArmReceive: a read is armed for `2 + len` bytes at its DMEM buffer or in DCMBUF, a write for 2 bytes in WRESP,
and the tick is sampled; a Busy receive gives Error (R171, R110, R172, R180, R183; `rxBegun` is the model's, log 14). -/
def Obligations.FrpArmsReceive : Prop :=
  ∀ (s : State) (callers : List Frame) (port : Port) (dest : Dest) (n : Nat), s.fg = .frp :: callers →
    s.frp.phase = .armReceive → s.ports[s.frp.port.toNat]? = some port →
    ((∃ a, s.frp.kind = .read ∧ s.frp.buf = .dmem a ∧ a ≠ 0 ∧ dest = ⟨.dmem, a⟩ ∧ n = 2 + s.frp.len.toNat) ∨
     (s.frp.kind = .read ∧ s.frp.buf = .internal ∧ dest = ⟨.scr, 2⟩ ∧ n = 2 + s.frp.len.toNat) ∨
     (s.frp.kind = .write ∧ dest = ⟨.scr, 0⟩ ∧ n = 2)) →
    (port.rx.status = .busy → fgTurn s = .next { s with frp := { s.frp with phase := .done .error } }) ∧
    (port.rx.status = .idle →
      fgTurn s = .next { s with frp := { s.frp with phase := .startupDelay, t0 := s.tick },
                                ports := s.ports.set s.frp.port.toNat
                                  { port with rx := ⟨dest, BitVec.ofNat 16 n, 0, .busy, true⟩, rxBegun := true } })

/-- Row StartupDelay, `k` ticks after its sample: 10 ticks on the first attempt and 15 on a retry change nothing; then,
with a legal line configuration, the window opens with the timeout of `2 + len` or 2 bytes at margin 5, rounded up
(R171, R174, R175, R180, R163); an illegal one is refused (R43). -/
def Obligations.FrpDelaysStart : Prop :=
  ∀ (s : State) (callers : List Frame) (port : Port) (k n : Nat), s.fg = .frp :: callers →
    s.frp.phase = .startupDelay → s.ports[s.frp.port.toNat]? = some port → k < 2 ^ 32 →
    s.tick = s.frp.t0 + BitVec.ofNat 32 k →
    (s.frp.kind = .read ∧ n = 2 + s.frp.len.toNat ∨ s.frp.kind = .write ∧ n = 2) →
    (k < (if s.frp.attempt = 0 then 10 else 15) → fgTurn s = .next s) ∧
    ((if s.frp.attempt = 0 then 10 else 15) ≤ k →
      (legalLine port.line.baudRate port.line.wordLength port.line.parityEnabled port.line.stopHalves = true →
        fgTurn s = .next { s with frp := { s.frp with
          phase := .awaitingResponse, t0 := s.tick,
          tmo := ((1000 / (port.line.baudRate : Rat)) *
            (8 + ((port.line.wordLength : Rat) - 8) + (port.line.parityEnabled : Rat) +
              (port.line.stopHalves : Rat) / 2) * (n : Rat) * 5).ceil.toNat } }) ∧
      (legalLine port.line.baudRate port.line.wordLength port.line.parityEnabled port.line.stopHalves = false →
        fgTurn s = .refused .illegalLineConfig))

/-- Row AwaitingResponse, `k` ticks after the window opened: an Idle receive goes to Evaluate, whatever the time; a Busy
one waits while `k` is below the timeout and is aborted, without any status, when it is not (R171, R166, R176). -/
def Obligations.FrpAwaitsResponse : Prop :=
  ∀ (s : State) (callers : List Frame) (port : Port) (k : Nat), s.fg = .frp :: callers →
    s.frp.phase = .awaitingResponse → s.ports[s.frp.port.toNat]? = some port → k < 2 ^ 32 →
    s.tick = s.frp.t0 + BitVec.ofNat 32 k →
    (port.rx.status = .idle → fgTurn s = .next { s with frp := { s.frp with phase := .evaluate } }) ∧
    (port.rx.status = .busy → k < s.frp.tmo → fgTurn s = .next s) ∧
    (port.rx.status = .busy → s.frp.tmo ≤ k →
      fgTurn s = .next { s with frp := { s.frp with phase := .evaluate },
                                ports := s.ports.set s.frp.port.toNat
                                  { port with rx := ⟨⟨.dmem, 0⟩, 0, 0, .idle, false⟩ } })

/-- RSP, a header without the sentinel, ends Evaluate in Done(Success) for a read and for a write, whatever its second
byte; outside Evaluate it changes nothing, which is the model's (R105, R106, R171, log 19). -/
def Obligations.RspSucceeds : Prop :=
  ∀ (s : State) (status length : Byte), status ≠ 0xEE →
    (s.frp.phase = .evaluate →
      exec (.rsp status length) s = .next { s with frp := { s.frp with phase := .done .success } }) ∧
    (s.frp.phase ≠ .evaluate → exec (.rsp status length) s = .next s)

/-- RSP_ERR, a header with the sentinel, in Evaluate: `EE 01` is success for a write; every other one, and every one for
a read, starts the next attempt while fewer than two retries were made, and then ends in Done(Error). Outside Evaluate
it changes nothing, which is the model's (R105, R106, R171, R182, log 19). -/
def Obligations.RspErrRetries : Prop :=
  ∀ (s : State) (code : Byte),
    (s.frp.phase = .evaluate → s.frp.kind = .write → code = 0x01 →
      exec (.rspErr code) s = .next { s with frp := { s.frp with phase := .done .success } }) ∧
    (s.frp.phase = .evaluate → (s.frp.kind = .read ∨ code ≠ 0x01) → s.frp.attempt.toNat < 2 →
      exec (.rspErr code) s =
        .next { s with frp := { s.frp with phase := .compose, attempt := s.frp.attempt + 1 } }) ∧
    (s.frp.phase = .evaluate → (s.frp.kind = .read ∨ code ≠ 0x01) → 2 ≤ s.frp.attempt.toNat →
      exec (.rspErr code) s = .next { s with frp := { s.frp with phase := .done .error } }) ∧
    (s.frp.phase ≠ .evaluate → exec (.rspErr code) s = .next s)

/-- Row Evaluate by what memory holds at that moment: a read is an error exactly if byte 0 of its destination is `EE`; a
write exactly if `SCR[0] = EE` and `SCR[1] ≠ 01`. An error is retried while fewer than two retries were made (R171, R177,
R181, R182). A byte 0 past the top of DMEM has no meaning (R73, R92, log 13). -/
def Obligations.EvaluateClassifies : Prop :=
  ∀ (s : State) (callers : List Frame), s.fg = .frp :: callers → s.frp.phase = .evaluate →
    (∀ bad : Prop,
      ((∃ a, s.frp.kind = .read ∧ s.frp.buf = .dmem a ∧ a < 2 ^ s.params.addrW ∧ (bad ↔ memRead s.dmem a = 0xEE)) ∨
       (s.frp.kind = .read ∧ s.frp.buf = .internal ∧ (bad ↔ s.scr[2] = 0xEE)) ∨
       (s.frp.kind = .write ∧ (bad ↔ s.scr[0] = 0xEE ∧ s.scr[1] ≠ 0x01))) →
      (¬ bad → fgTurn s = .next { s with frp := { s.frp with phase := .done .success } }) ∧
      (bad → s.frp.attempt.toNat < 2 →
        fgTurn s = .next { s with frp := { s.frp with phase := .compose, attempt := s.frp.attempt + 1 } }) ∧
      (bad → 2 ≤ s.frp.attempt.toNat → fgTurn s = .next { s with frp := { s.frp with phase := .done .error } })) ∧
    ∀ a, s.frp.kind = .read → s.frp.buf = .dmem a → 2 ^ s.params.addrW ≤ a → fgTurn s = .fault .outsideDmem

/-- The write response rule: in Evaluate a write ends in success unless `SCR[0] = EE` and `SCR[1] ≠ 01` (R106, R181). -/
def Obligations.WriteResponseRule : Prop :=
  ∀ (s : State) (callers : List Frame), s.fg = .frp :: callers → s.frp.phase = .evaluate → s.frp.kind = .write →
    (fgTurn s = .next { s with frp := { s.frp with phase := .done .success } } ↔
      ¬ (s.scr[0] = 0xEE ∧ s.scr[1] ≠ 0x01))

/-- A timeout is not reported: a READ_REG of the host whose window ends with the receive still Busy returns Success
within three turns of FG, provided byte 0 of its buffer is not `EE`, with DMEM unchanged and the receive aborted (R176,
R229, R300). -/
def Obligations.SilentReadSucceeds : Prop :=
  ∀ (s : State) (port : Port) (a : Nat) (k : Nat), s.fg = [.frp] → s.frp.phase = .awaitingResponse →
    s.frp.kind = .read → s.frp.buf = .dmem a → s.ports[s.frp.port.toNat]? = some port →
    port.rx.status = .busy → k < 2 ^ 32 → s.tick = s.frp.t0 + BitVec.ofNat 32 k → s.frp.tmo ≤ k →
    a < 2 ^ s.params.addrW → memRead s.dmem a ≠ 0xEE →
    ∃ t u, fgTurn s = .next t ∧ fgTurn t = .next u ∧
      fgTurn u = .next { s with frp := { s.frp with phase := .idle }, fg := [], ret := some ⟨.success, .none⟩,
                                ports := s.ports.set s.frp.port.toNat
                                  { port with rx := ⟨⟨.dmem, 0⟩, 0, 0, .idle, false⟩ } }

/-! ### The rows of R190 and the sequences above them -/

/-- Rows ReadCurrent and WriteNew: READ_REG of one byte of PAGE_REG or MODE_REG into DCMBUF, which takes drawn bytes
first; WRITE_REG of one byte, the target, with WRESP drawn (R190, R192, R194, R196, R35). That the callee's row Idle is
part of the calling step is log 6. -/
def Obligations.PassCallsFrp : Prop :=
  ∀ (s : State) (k : Pass) (callers : List Frame) (reg : Byte), s.fg = .dcm k :: callers →
    s.dcm.port.toNat < s.ports.length →
    (k = .selectPage ∧ reg = s.params.pageReg ∨ k ≠ .selectPage ∧ reg = s.params.modeReg) →
    (s.dcm.phase = .readCurrent → ∃ d0 d1 d2 : Byte, fgTurn s =
      .next { s with frp := { s.frp with phase := .compose, kind := .read, port := s.dcm.port, addr := reg, len := 1,
                                         buf := .internal, attempt := 0 },
                     scr := ((s.scr.setIfInBounds 2 d0).setIfInBounds 3 d1).setIfInBounds 4 d2,
                     draws := s.draws + 3, fg := .frp :: .dcm k :: callers }) ∧
    (s.dcm.phase = .writeNew → ∃ d0 d1 : Byte, fgTurn s =
      .next { s with frp := { s.frp with phase := .compose, kind := .write, port := s.dcm.port, addr := reg, len := 1,
                                         buf := .internal, attempt := 0 },
                     scr := (s.scr.setIfInBounds 0 d0).setIfInBounds 1 d1,
                     draws := s.draws + 2, fg := .frp :: .dcm k :: callers })

/-- Row Decide: the byte read back is `SCR[4]`, whole; GET_MODE is done, SELECT_PAGE writes only a page that differs,
SET_MODE always writes (R190, R191, R192, R196). -/
def Obligations.PassDecides : Prop :=
  ∀ (s : State) (k : Pass) (callers : List Frame), s.fg = .dcm k :: callers → s.dcm.phase = .decide →
    fgTurn s = .next { s with dcm := { s.dcm with
      current := s.scr[4],
      phase := if k = .getMode ∨ (k = .selectPage ∧ s.scr[4] = s.dcm.target) then .done .success else .writeNew } }

/-- The values of R197's table: 19 ticks into CONFIG, 7 out of it, 0 otherwise. That SET_MODE waits that long before it
returns is `Obligations.SetModeSettles`. -/
def Obligations.SettleTable : Prop :=
  ∀ (c : Params) (cur mode : Byte),
    (cur ≠ c.modeConfig → mode = c.modeConfig → settleTicks c cur mode = 19) ∧
    (cur = c.modeConfig → mode ≠ c.modeConfig → settleTicks c cur mode = 7) ∧
    (cur = c.modeConfig → mode = c.modeConfig → settleTicks c cur mode = 0) ∧
    (cur ≠ c.modeConfig → mode ≠ c.modeConfig → settleTicks c cur mode = 0)

/-- Row Settle (R190) with the table of R197 and the wait of R165: 19 ticks into CONFIG, 7 out of it, none otherwise;
SET_MODE is done, with Success, at no turn of FG before that many ticks. The entry sample in the calling step, and a
delay of 0 without a step of its own, are log 6. -/
def Obligations.SetModeSettles : Prop :=
  (∀ (s : State) (callers : List Frame) (n : Half), s.fg = .dcm .setMode :: callers → s.dcm.phase = .settle →
    (s.dcm.current ≠ s.params.modeConfig ∧ s.dcm.target = s.params.modeConfig ∧ n = 19 ∨
     s.dcm.current = s.params.modeConfig ∧ s.dcm.target ≠ s.params.modeConfig ∧ n = 7 ∨
     (s.dcm.current = s.params.modeConfig ↔ s.dcm.target = s.params.modeConfig) ∧ n = 0) →
    (n = 0 → fgTurn s = .next { s with dcm := { s.dcm with phase := .done .success } }) ∧
    (n ≠ 0 → fgTurn s = .next { s with fg := .delay n s.tick :: .dcm .setMode :: callers })) ∧
  ∀ (s : State) (callers : List Frame) (n : Half) (t0 : Tick) (k : Nat),
    s.fg = .delay n t0 :: .dcm .setMode :: callers → s.dcm.phase = .settle → k < 2 ^ 32 →
    s.tick = t0 + BitVec.ofNat 32 k →
    (k < n.toNat → fgTurn s = .next s) ∧
    (n.toNat ≤ k →
      fgTurn s = .next { s with fg := .dcm .setMode :: callers, dcm := { s.dcm with phase := .done .success } })

/-- What a pass does with the status of the operation it called, and what it returns: ReadCurrent goes to Decide on
Success; WriteNew ends SELECT_PAGE with the status, and SET_MODE goes to Settle on Success; any other status ends the
pass; GET_MODE returns the mode read back, on Success only (R190, R170). -/
def Obligations.PassReturns : Prop :=
  (∀ (s : State) (k : Pass) (callers : List Frame) (st : Status), s.fg = .frp :: .dcm k :: callers →
    s.frp.phase = .done st → (s.dcm.phase = .readCurrent ∨ s.dcm.phase = .writeNew ∧ k ≠ .getMode) →
    fgTurn s = .next { s with fg := .dcm k :: callers, frp := { s.frp with phase := .idle },
                              dcm := { s.dcm with
                                phase := if st = .success ∧ s.dcm.phase = .readCurrent then .decide
                                         else if st = .success ∧ k = .setMode then .settle
                                         else .done st } }) ∧
  ∀ (s : State) (k : Pass) (st : Status), s.fg = [.dcm k] → s.dcm.phase = .done st →
    fgTurn s = .next { s with fg := [], dcm := { s.dcm with phase := .idle },
                              ret := some ⟨st, if k = .getMode ∧ st = .success then .mode s.dcm.current else .none⟩ }

/-- ENSURE_CONFIG after its GET_MODE: of the host, in CONFIG, it returns that mode; not in CONFIG, of the host or inside a
SETTINGS_WRITE, it keeps the mode read as `dcm_prev` and goes on to SET_MODE of CONFIG, after whose Success the host's
returns the mode it had read; when either fails the host's returns that status and no mode. RESTORE_MODE returns what its
SET_MODE returns (R198, R200, R170). A return and the caller's next call in one step are log 6, SET_MODE without a frame
for its GET_MODE is log 7. -/
def Obligations.EnsureAndRestoreReturn : Prop :=
  (∀ (s : State) (callers : List Frame), s.fg = .dcm .getMode :: .ensure .reading :: callers →
    s.dcm.phase = .done .success → s.dcm.current ≠ s.params.modeConfig → s.dcm.port.toNat < s.ports.length →
    s.params.modeConfig ∈ s.params.modeSet →
    fgTurn s = .next { s with fg := .dcm .setMode :: .ensure .switching :: callers,
                              dcm := { s.dcm with phase := .readCurrent, target := s.params.modeConfig,
                                                  prev := s.dcm.current } }) ∧
  (∀ s : State, s.fg = [.dcm .getMode, .ensure .reading] → s.dcm.phase = .done .success →
    s.dcm.current = s.params.modeConfig →
    fgTurn s = .next { s with fg := [], dcm := { s.dcm with phase := .idle, prev := s.dcm.current },
                              ret := some ⟨.success, .mode s.params.modeConfig⟩ }) ∧
  (∀ s : State, s.fg = [.dcm .setMode, .ensure .switching] → s.dcm.phase = .done .success →
    fgTurn s = .next { s with fg := [], dcm := { s.dcm with phase := .idle },
                              ret := some ⟨.success, .mode s.dcm.prev⟩ }) ∧
  (∀ (s : State) (k : Pass) (stage : EnsureStage) (st : Status), s.fg = [.dcm k, .ensure stage] →
    s.dcm.phase = .done st → st ≠ .success →
    fgTurn s = .next { s with fg := [], dcm := { s.dcm with phase := .idle }, ret := some ⟨st, .none⟩ }) ∧
  ∀ (s : State) (st : Status), s.fg = [.dcm .setMode, .restore] → s.dcm.phase = .done st →
    fgTurn s = .next { s with fg := [], dcm := { s.dcm with phase := .idle }, ret := some ⟨st, .none⟩ }

/-- SETTINGS_WRITE's calls in order, each after the Success of the one before: ENSURE_CONFIG, whether the device was in
CONFIG or not, SELECT_PAGE of its page, WRITE_REG of its bytes, RESTORE_MODE of the mode ENSURE_CONFIG read, whose status
it returns. A page that is none is found by SELECT_PAGE, a null payload or a length 0 by WRITE_REG, a mode read that is
no legal mode by RESTORE_MODE: that call is then done with InvalidParam and has done nothing (R202, R200, R192, R178,
D23). A return and the caller's next call in one step are log 6. -/
def Obligations.SettingsWriteInOrder : Prop :=
  ∀ (s : State) (page addr len : Byte) (a : Nat), s.dcm.port.toNat < s.ports.length →
    (s.fg = [.dcm .getMode, .ensure .reading, .settings .ensuring page addr len a] →
      s.dcm.phase = .done .success → s.dcm.current = s.params.modeConfig →
      ((page = 0 ∨ page = 1) →
        fgTurn s = .next { s with fg := [.dcm .selectPage, .settings .paging page addr len a],
                                  dcm := { s.dcm with phase := .readCurrent, target := page,
                                                      prev := s.dcm.current } }) ∧
      (page ≠ 0 → page ≠ 1 →
        fgTurn s = .next { s with fg := [.dcm .selectPage, .settings .paging page addr len a],
                                  dcm := { s.dcm with phase := .done .invalidParam, prev := s.dcm.current } })) ∧
    (s.fg = [.dcm .setMode, .ensure .switching, .settings .ensuring page addr len a] →
      s.dcm.phase = .done .success →
      ((page = 0 ∨ page = 1) →
        fgTurn s = .next { s with fg := [.dcm .selectPage, .settings .paging page addr len a],
                                  dcm := { s.dcm with phase := .readCurrent, target := page } }) ∧
      (page ≠ 0 → page ≠ 1 →
        fgTurn s = .next { s with fg := [.dcm .selectPage, .settings .paging page addr len a],
                                  dcm := { s.dcm with phase := .done .invalidParam } })) ∧
    (s.fg = [.dcm .selectPage, .settings .paging page addr len a] → s.dcm.phase = .done .success →
      (a ≠ 0 → len ≠ 0 → ∃ d0 d1 : Byte,
        fgTurn s = .next { s with fg := [.frp, .settings .writing page addr len a],
                                  dcm := { s.dcm with phase := .idle },
                                  frp := { s.frp with phase := .compose, kind := .write, port := s.dcm.port,
                                                      addr := addr, len := len, buf := .dmem a, attempt := 0 },
                                  scr := (s.scr.setIfInBounds 0 d0).setIfInBounds 1 d1, draws := s.draws + 2 }) ∧
      (a = 0 ∨ len = 0 →
        fgTurn s = .next { s with fg := [.frp, .settings .writing page addr len a],
                                  dcm := { s.dcm with phase := .idle },
                                  frp := { s.frp with phase := .done .invalidParam } })) ∧
    (s.fg = [.frp, .settings .writing page addr len a] → s.frp.phase = .done .success →
      (s.dcm.prev ∈ s.params.modeSet →
        fgTurn s = .next { s with fg := [.dcm .setMode, .restore, .settings .restoring page addr len a],
                                  frp := { s.frp with phase := .idle },
                                  dcm := { s.dcm with phase := .readCurrent, target := s.dcm.prev } }) ∧
      (s.dcm.prev ∉ s.params.modeSet →
        fgTurn s = .next { s with fg := [.dcm .setMode, .restore, .settings .restoring page addr len a],
                                  frp := { s.frp with phase := .idle },
                                  dcm := { s.dcm with phase := .done .invalidParam } })) ∧
    ∀ st : Status, s.fg = [.dcm .setMode, .restore, .settings .restoring page addr len a] →
      s.dcm.phase = .done st →
      fgTurn s = .next { s with fg := [], dcm := { s.dcm with phase := .idle }, ret := some ⟨st, .none⟩ }

/-- The restoration gap: an ENSURE_CONFIG, SELECT_PAGE or WRITE_REG of SETTINGS_WRITE that fails ends the whole operation
with that status at once; RESTORE_MODE is not run, nothing is undone, and no port, device or memory changes in that step
(R203, R243, R170). -/
def Obligations.FailedWriteRestoresNothing : Prop :=
  ∀ (s : State) (page addr len : Byte) (a : Nat) (st : Status), st ≠ .success →
    (∀ k stage, s.fg = [.dcm k, .ensure stage, .settings .ensuring page addr len a] → s.dcm.phase = .done st →
      fgTurn s = .next { s with fg := [], dcm := { s.dcm with phase := .idle }, ret := some ⟨st, .none⟩ }) ∧
    (s.fg = [.dcm .selectPage, .settings .paging page addr len a] → s.dcm.phase = .done st →
      fgTurn s = .next { s with fg := [], dcm := { s.dcm with phase := .idle }, ret := some ⟨st, .none⟩ }) ∧
    (s.fg = [.frp, .settings .writing page addr len a] → s.frp.phase = .done st →
      fgTurn s = .next { s with fg := [], frp := { s.frp with phase := .idle }, ret := some ⟨st, .none⟩ })

/-! ### The device and the peripheral -/

/-- RD with `len >= 1`: the device answers `BB len` and the `len` registers from `reg` on in the current page, addresses
modulo 256, PAGE_REG reading the page and MODE_REG the one mode register (R223, R220). -/
def Obligations.RdAnswers : Prop :=
  ∀ (s : State) (reg len : Byte) (port : Port), s.ports[s.activePort]? = some port → len ≠ 0 →
    exec (.rd reg len) s =
      .next { s with ports := s.ports.set s.activePort { port with dev := { port.dev with
        out := port.dev.out ++ 0xBB :: len :: (List.range len.toNat).map fun i =>
          if reg + BitVec.ofNat 8 i = s.params.pageReg then BitVec.ofNat 8 port.dev.page
          else if reg + BitVec.ofNat 8 i = s.params.modeReg then memRead port.dev.regs s.params.modeReg.toNat
          else memRead port.dev.regs (256 * port.dev.page + (reg + BitVec.ofNat 8 i).toNat) } } }

/-- WR with `len >= 1` payload bytes to plain registers, none of them gated unless the mode is CONFIG: the device answers
`EE 01`, each byte is stored at its address modulo 256 in the current page, every other register and everything else
stays (R224). -/
def Obligations.WrStores : Prop :=
  ∀ (s : State) (reg len : Byte) (payload : List Byte) (port : Port), s.ports[s.activePort]? = some port → len ≠ 0 →
    payload.length = len.toNat →
    (∀ i < len.toNat, reg + BitVec.ofNat 8 i ≠ s.params.pageReg ∧ reg + BitVec.ofNat 8 i ≠ s.params.modeReg ∧
      ((port.dev.page, reg + BitVec.ofNat 8 i) ∈ s.params.cfgOnly →
        memRead port.dev.regs s.params.modeReg.toNat = s.params.modeConfig)) →
    ∃ regs : Memory,
      exec (.wr reg len payload) s =
        .next { s with ports := s.ports.set s.activePort { port with dev := { port.dev with
          regs := regs, out := port.dev.out ++ [0xEE, 0x01] } } } ∧
      (∀ i < len.toNat,
        some (memRead regs (256 * port.dev.page + (reg + BitVec.ofNat 8 i).toNat)) = payload[i]?) ∧
      ∀ k, (∀ i < len.toNat, k ≠ 256 * port.dev.page + (reg + BitVec.ofNat 8 i).toNat) →
        memRead regs k = memRead port.dev.regs k

/-- WR of one byte to PAGE_REG selects the page by its low bit; to MODE_REG it changes the mode and starts the settle
count of 19 ticks into CONFIG or 7 out of it, and leaves a count that runs alone otherwise; each unless it is gated
outside CONFIG (R224). -/
def Obligations.WrSwitches : Prop :=
  ∀ (s : State) (v : Byte) (port : Port), s.ports[s.activePort]? = some port →
    s.params.pageReg ≠ s.params.modeReg →
    let mode := memRead port.dev.regs s.params.modeReg.toNat
    (((port.dev.page, s.params.pageReg) ∈ s.params.cfgOnly → mode = s.params.modeConfig) →
      exec (.wr s.params.pageReg 1 [v]) s =
        .next { s with ports := s.ports.set s.activePort { port with dev := { port.dev with
          page := v.toNat % 2, out := port.dev.out ++ [0xEE, 0x01] } } }) ∧
    (((port.dev.page, s.params.modeReg) ∈ s.params.cfgOnly → mode = s.params.modeConfig) →
      exec (.wr s.params.modeReg 1 [v]) s =
        .next { s with ports := s.ports.set s.activePort { port with dev := { port.dev with
          regs := memWrite port.dev.regs s.params.modeReg.toNat v,
          settle := if mode ≠ s.params.modeConfig ∧ v = s.params.modeConfig then 19
                    else if mode = s.params.modeConfig ∧ v ≠ s.params.modeConfig then 7
                    else port.dev.settle,
          out := port.dev.out ++ [0xEE, 0x01] } } })

/-- Error answers: a frame with `len = 0`, and a write that reaches a gated register outside CONFIG, store nothing and are
answered `EE c` with `c` from 02 to 0A, whichever it is (R226, R224; log 11). The byte that completes a frame with `len = 0`
or with an opcode that is neither 00 nor 01 has that answer too, and a fault injected at any complete frame answers
`EE c` with the code of the move in the frame's place; the collected bytes are emptied (R221, R226, log 20). -/
def Obligations.DeviceErrorAnswers : Prop :=
  (∀ (s : State) (reg len : Byte) (payload : List Byte) (port : Port), s.ports[s.activePort]? = some port →
    ∃ c : Byte, 0x02 ≤ c ∧ c ≤ 0x0A ∧
      let answered : Result := .next { s with
        draws := s.draws + 1,
        ports := s.ports.set s.activePort { port with dev := { port.dev with out := port.dev.out ++ [0xEE, c] } } }
      exec (.rd reg 0) s = answered ∧ exec (.wr reg 0 payload) s = answered ∧
      (len ≠ 0 → payload.length = len.toNat →
        (len = 1 ∨
          ∀ i < len.toNat, reg + BitVec.ofNat 8 i ≠ s.params.pageReg ∧ reg + BitVec.ofNat 8 i ≠ s.params.modeReg) →
        (∃ i < len.toNat, (port.dev.page, reg + BitVec.ofNat 8 i) ∈ s.params.cfgOnly) →
        memRead port.dev.regs s.params.modeReg.toNat ≠ s.params.modeConfig →
        exec (.wr reg len payload) s = answered)) ∧
  ∀ (s : State) (p : Nat) (port : Port) (b op reg len : Byte) (line payload : List Byte),
    s.ports[p]? = some port → port.dev.settle = 0 → port.lineOut = b :: line →
    port.dev.cmd ++ [b] = 0xAA :: op :: reg :: len :: payload →
    (payload = [] → len = 0 ∧ (op = 0x00 ∨ op = 0x01) ∨ op ≠ 0x00 ∧ op ≠ 0x01 →
      ∃ c : Byte, 0x02 ≤ c ∧ c ≤ 0x0A ∧ runMove (.devTake p none) s = .next { s with
        draws := s.draws + 1,
        activePort := if op = 0x00 ∨ op = 0x01 then p else s.activePort,
        ports := s.ports.set p { port with lineOut := line,
                                           dev := { port.dev with cmd := [], out := port.dev.out ++ [0xEE, c] } } }) ∧
    (op = 0x00 ∧ payload.length = len.toNat ∨ op ≠ 0x00 ∧ payload = [] →
      ∀ k : Fin 9, runMove (.devTake p (some k)) s = .next { s with
        ports := s.ports.set p { port with lineOut := line,
                                           dev := { port.dev with
                                             cmd := [],
                                             out := port.dev.out ++ [0xEE, BitVec.ofNat 8 (2 + k.val)] } } })

/-- The device's half of the round trip: a write frame followed by a read frame of the same registers is answered with
the bytes written, for plain registers that are not gated (R186, R223, R224). -/
def Obligations.DeviceRoundTrip : Prop :=
  ∀ (s : State) (reg len : Byte) (payload : List Byte) (port : Port), s.ports[s.activePort]? = some port → len ≠ 0 →
    payload.length = len.toNat →
    (∀ i < len.toNat, reg + BitVec.ofNat 8 i ≠ s.params.pageReg ∧ reg + BitVec.ofNat 8 i ≠ s.params.modeReg ∧
      (port.dev.page, reg + BitVec.ofNat 8 i) ∉ s.params.cfgOnly) →
    ∃ t u port', exec (.wr reg len payload) s = .next t ∧ exec (.rd reg len) t = .next u ∧
      u.ports[s.activePort]? = some port' ∧
      port'.dev.out = port.dev.out ++ [0xEE, 0x01] ++ 0xBB :: len :: payload

/-- The moves around the block, one a step. TxLoad moves a waiting byte into an empty shift register and raises
TXE; TxShiftOut puts the shifted byte on the line and raises TC only when nothing waits; a byte that arrives is kept
with its flags if none is unread, and otherwise is lost with ORE set; DevSend is the arrival of the device's first
queued byte (R214, R215, R216, R225: the reference peripheral and device, log 12; a lost byte's own flags, log 27).
DevTake drops a byte while the device settles or hunts for `AA`, and collects the bytes of a frame that is not complete
(R221). The host's store changes its byte and no other at any time (R92, log 25; past the top of DMEM, log 13); `cfg[p]`
changes only with FG and the port idle (R43, R265, log 25). A move that is not enabled changes nothing (log 4). -/
def Obligations.PeripheralMovesBytes : Prop :=
  (∀ (s : State) (m : Move) (ms : List Move), s.moves = m :: ms → step s = runMove m { s with moves := ms }) ∧
  (∀ (s : State) (p : Nat) (b : Byte) (fe pe ne : Bool) (fault : Option (Fin 9)) (cfg : LineConfig),
    s.ports.length ≤ p →
    ∀ m ∈ [Move.txLoad p, .txShiftOut p, .rxArrive p b fe pe ne, .devTake p fault, .devSend p fe pe ne,
           .configure p cfg], runMove m s = .next s) ∧
  (∀ (s : State) (p : Nat) (port : Port) (b : Byte) (fe pe ne : Bool), s.ports[p]? = some port →
    (port.periph.tdr = some b → port.periph.tsr = none →
      runMove (.txLoad p) s = .next { s with ports := s.ports.set p { port with periph := { port.periph with
        tsr := some b, tdr := none, txe := true } } }) ∧
    (port.periph.tdr = none ∨ port.periph.tsr = some b → runMove (.txLoad p) s = .next s) ∧
    (port.periph.tsr = some b →
      runMove (.txShiftOut p) s = .next { s with ports := s.ports.set p { port with
        periph := { port.periph with tsr := none,
                                     tc := if port.periph.tdr = none then true else port.periph.tc },
        lineOut := port.lineOut ++ [b] } }) ∧
    (port.periph.tsr = none → runMove (.txShiftOut p) s = .next s) ∧
    (port.periph.rxne = false →
      runMove (.rxArrive p b fe pe ne) s = .next { s with ports := s.ports.set p { port with
        periph := { port.periph with
          rdr := b, rxne := true,
          errors := ⟨port.periph.errors.fe || fe, port.periph.errors.pe || pe, port.periph.errors.ore,
                     port.periph.errors.ne || ne⟩ } } }) ∧
    (port.periph.rxne = true →
      runMove (.rxArrive p b fe pe ne) s = .next { s with ports := s.ports.set p { port with
        periph := { port.periph with errors := { port.periph.errors with ore := true } } } }) ∧
    (∀ out, port.dev.out = b :: out →
      runMove (.devSend p fe pe ne) s =
        runMove (.rxArrive p b fe pe ne)
          { s with ports := s.ports.set p { port with dev := { port.dev with out := out } } }) ∧
    (port.dev.out = [] → runMove (.devSend p fe pe ne) s = .next s)) ∧
  (∀ (s : State) (p : Nat) (port : Port) (fault : Option (Fin 9)), s.ports[p]? = some port →
    (port.lineOut = [] → runMove (.devTake p fault) s = .next s) ∧
    ∀ (b : Byte) (line : List Byte), port.lineOut = b :: line →
      (0 < port.dev.settle ∨ port.dev.cmd = [] ∧ b ≠ 0xAA →
        runMove (.devTake p fault) s = .next { s with ports := s.ports.set p { port with lineOut := line } }) ∧
      (port.dev.settle = 0 → (port.dev.cmd ≠ [] ∨ b = 0xAA) →
        (port.dev.cmd.length < 3 ∨
          ∃ reg len r, port.dev.cmd ++ [b] = 0xAA :: 0x00 :: reg :: len :: r ∧ r.length < len.toNat) →
        runMove (.devTake p fault) s = .next { s with
          ports := s.ports.set p { port with lineOut := line,
                                             dev := { port.dev with cmd := port.dev.cmd ++ [b] } } })) ∧
  (∀ (s : State) (a : Nat) (v : Byte),
    (a < 2 ^ s.params.addrW → ∃ mem, runMove (.hostStore a v) s = .next { s with dmem := mem } ∧
      memRead mem a = v ∧ ∀ x, x ≠ a → memRead mem x = memRead s.dmem x) ∧
    (2 ^ s.params.addrW ≤ a → runMove (.hostStore a v) s = .fault .outsideDmem)) ∧
  ∀ (s : State) (p : Nat) (port : Port) (cfg : LineConfig), s.ports[p]? = some port →
    (s.fg = [] → port.tx.status = .idle → port.rx.status = .idle →
      runMove (.configure p cfg) s = .next { s with ports := s.ports.set p { port with line := cfg } }) ∧
    (s.fg ≠ [] ∨ port.tx.status = .busy ∨ port.rx.status = .busy → runMove (.configure p cfg) s = .next s)

/-! ### Reset -/

/-- The state after reset is sound, waits for its first operation with every serial interrupt disabled, and holds the
values R60, R212 and R222 give. -/
def Obligations.ResetIsSound : Prop :=
  State.reset.sound ∧ State.reset.legal ∧ State.reset.memorySound ∧ State.reset.wireSound ∧ State.reset.periphSound ∧
  State.reset.fg = [] ∧ State.reset.frp.phase = .idle ∧ State.reset.dcm.phase = .idle ∧
  ∀ port ∈ State.reset.ports,
    port.tx.len = 0 ∧ port.tx.cur = 0 ∧ port.tx.status = .idle ∧ port.tx.txeie = false ∧ port.tx.tcie = false ∧
    port.rx = ⟨⟨.dmem, 0⟩, 0, 0, .idle, false⟩ ∧
    port.periph.tdr = none ∧ port.periph.tsr = none ∧ port.periph.txe = true ∧ port.periph.tc = false ∧
    port.periph.rxne = false ∧ port.periph.errors = ⟨false, false, false, false⟩ ∧
    port.dev.page = 0 ∧ memRead port.dev.regs State.reset.params.modeReg.toNat = State.reset.params.modeConfig ∧
    (∀ k, k ≠ State.reset.params.modeReg.toNat → memRead port.dev.regs k = 0) ∧
    port.dev.cmd = [] ∧ port.dev.out = [] ∧ port.dev.settle = 0

/-- Reset of the block from any state: the registers inside take the reset values of R60, and DMEM, the clock, the line
configuration, the peripheral and the device keep theirs (R60, R61, R62, R280, R282). -/
def Obligations.BlockReset : Prop :=
  ∀ s : State, ∃ t, runMove .resetBlock s = .next t ∧
    t.fg = [] ∧ t.frp.phase = .idle ∧ t.dcm.phase = .idle ∧
    t.dmem = s.dmem ∧ t.tick = s.tick ∧ t.params = s.params ∧ t.ports.length = s.ports.length ∧
    ∀ (p : Nat) (port port' : Port), s.ports[p]? = some port → t.ports[p]? = some port' →
      port'.tx.len = 0 ∧ port'.tx.cur = 0 ∧ port'.tx.status = .idle ∧ port'.tx.txeie = false ∧
      port'.tx.tcie = false ∧ port'.rx = ⟨⟨.dmem, 0⟩, 0, 0, .idle, false⟩ ∧
      port'.line = port.line ∧ port'.periph = port.periph ∧ port'.dev = port.dev ∧ port'.lineOut = port.lineOut

/-! ### Invariants and whole-machine rules -/

/-- Every step of every agent keeps the transport invariants of R54 to R56, with R56's length 0 before the first
successful BEGIN_TX and at least 1 from it on, and the sequencers' invariants of R32, R171 and R190. -/
def Obligations.StepKeepsSound : Prop := ∀ s t : State, s.sound → step s = .next t → t.sound

/-- A sound state's step never breaks: it goes on, or it stops where the spec itself gives no meaning (R73, R92, R112,
R146, R160), or where a record ends early, which is the model's (log 1). -/
def Obligations.SoundStepStopsOnlyBySpec : Prop := ∀ s : State, s.sound → Result.specStop (step s) = true

/-- Every step keeps the outgoing streams in order: the bytes handed over so far in a transfer, in index order, end the
port's `wire_out` (R58, R77). -/
def Obligations.StepKeepsWireOrder : Prop := ∀ s t : State, s.wireSound → step s = .next t → t.wireSound

/-- Every step keeps the memories in their canonical form, TXE set exactly when the data register is empty (R212), and the
parameters and the number of ports ones that R5 allows (the canonical form is the model's, log 8). -/
def Obligations.StepKeepsForms : Prop :=
  ∀ s t : State, step s = .next t →
    (s.memorySound → t.memorySound) ∧ (s.periphSound → t.periphSound) ∧ (s.legal → t.legal)

/-- A transmit is ended by its completion arm and by nothing else, but for the reset of the block (R24, R152, R60; the
reset as a move is log 24). Only a state that is not sound, and that no run reaches, lets a PORT_INIT end one, in FG's
turn, on a port that has had no PORT_INIT, BEGIN_TX or BEGIN_RX (R146, log 14). -/
def Obligations.TransmitEndsByCompletion : Prop :=
  ∀ (s t : State) (p : Nat) (port port' : Port), step s = .next t → s.ports[p]? = some port →
    t.ports[p]? = some port' → port.tx.status = .busy → port'.tx.status = .idle →
    (∃ record ms q tail, s.moves = .event record :: ms ∧ decodeEvent record = .ok (.irqTc q, tail) ∧ q.toNat = p ∧
      port.tx.tcie = true ∧ port.periph.tc = true) ∨
    (∃ ms, s.moves = .resetBlock :: ms) ∨
    (¬ s.transportSound ∧ (s.moves = [] ∨ ∃ ms, s.moves = .fg :: ms) ∧ s.fg = [] ∧
      port.initDone = false ∧ port.txBegun = false ∧ port.rxBegun = false ∧
      ∃ q tail, decodeHost s.params.addrSize s.commands = .ok (.portInit q, tail) ∧ q.toNat = p)

/-- What no instruction writes, and what only one does: parameters, number of ports and line configurations are never
written; the clock only by TICK, DMEM only by IRQ_RXNE, a port's outgoing stream only by IRQ_TXE and its incoming one
only by IRQ_RXNE (R43, R47, R75, R76, R265). -/
def Obligations.OnlyNamedInstructionsWrite : Prop :=
  ∀ (i : Instr) (s t : State), exec i s = .next t →
    t.params = s.params ∧ t.ports.length = s.ports.length ∧
    (i ≠ .tick → t.tick = s.tick) ∧ ((∀ p, i ≠ .irqRxne p) → t.dmem = s.dmem) ∧
    ∀ (p : Nat) (port port' : Port), s.ports[p]? = some port → t.ports[p]? = some port' →
      port'.line = port.line ∧
      ((∀ q, i ≠ .irqTxe q) → port'.wireOut = port.wireOut) ∧
      ((∀ q, i ≠ .irqRxne q) → port'.wireIn = port.wireIn)

end
end

