-- ==== Sys2Proof/Laws/Decode.lean ====
section
/-! SUPPORT. The laws of the decoder's readers: what a reader that succeeds has taken, and what it reads back from the
bytes the encoder writes. -/

namespace Sys2Proof

@[simp] theorem natBytes_length (n x : Nat) : (natBytes n x).length = n := by
  induction n with
  | zero => rfl
  | succ n ih => simp [natBytes, ih]

theorem bytesNat_lt (bytes : List Byte) : bytesNat bytes < 256 ^ bytes.length := by
  induction bytes with
  | nil => simp [bytesNat]
  | cons b r ih =>
    have hb : b.toNat < 256 := b.isLt
    have h : b.toNat * 256 ^ r.length + 256 ^ r.length ≤ 256 * 256 ^ r.length := by
      rw [← Nat.succ_mul]; exact Nat.mul_le_mul_right _ hb
    simp only [bytesNat, List.length_cons, Nat.pow_succ, Nat.mul_comm _ 256]
    omega

/-- The bytes of a number give it back modulo what they can hold. -/
theorem bytesNat_natBytes (n x : Nat) : bytesNat (natBytes n x) = x % 256 ^ n := by
  induction n with
  | zero => simp [natBytes, bytesNat, Nat.mod_one]
  | succ n ih =>
    simp only [natBytes, bytesNat, natBytes_length, ih, BitVec.toNat_ofNat]
    have h := Nat.mod_pow_succ (b := 256) (k := n) (x := x)
    rw [h, Nat.mul_comm, Nat.add_comm]

theorem natBytes_mod (n c x : Nat) : natBytes n (c * 256 ^ n + x) = natBytes n x := by
  induction n generalizing c with
  | zero => rfl
  | succ n ih =>
    have hc : c * 256 ^ (n + 1) = (c * 256) * 256 ^ n := by rw [Nat.pow_succ, Nat.mul_comm _ 256, Nat.mul_assoc]
    have hb : BitVec.ofNat 8 (c * 256 + x / 256 ^ n) = BitVec.ofNat 8 (x / 256 ^ n) := by
      apply BitVec.eq_of_toNat_eq
      simp only [BitVec.toNat_ofNat]
      omega
    simp only [natBytes, hc, ih]
    rw [Nat.add_comm, Nat.add_mul_div_right _ _ (Nat.pow_pos (by decide)), Nat.add_comm, hb]

/-- The number of some bytes gives them back. -/
theorem natBytes_bytesNat (bytes : List Byte) : natBytes bytes.length (bytesNat bytes) = bytes := by
  induction bytes with
  | nil => rfl
  | cons b r ih =>
    have h : (b.toNat * 256 ^ r.length + bytesNat r) / 256 ^ r.length = b.toNat := by
      rw [Nat.add_comm, Nat.add_mul_div_right _ _ (Nat.pow_pos (by decide)), Nat.div_eq_of_lt (bytesNat_lt r),
        Nat.zero_add]
    simp only [List.length_cons, natBytes, bytesNat, h, natBytes_mod, ih, BitVec.ofNat_toNat, BitVec.setWidth_eq]

/-! What a reader reads back from the encoder's bytes. -/

@[simp] theorem takeNat_natBytes (n x : Nat) (h : x < 256 ^ n) (r : List Byte) (k : Nat → List Byte → Decoded) :
    takeNat n (natBytes n x ++ r) k = k x r := by
  have ht : (natBytes n x ++ r).take n = natBytes n x := by
    rw [List.take_append_of_le_length (by simp), List.take_of_length_le (by simp)]
  have hd : (natBytes n x ++ r).drop n = r := by
    rw [List.drop_append_of_le_length (by simp), List.drop_of_length_le (by simp), List.nil_append]
  simp [takeNat, ht, hd, bytesNat_natBytes, Nat.mod_eq_of_lt h]

@[simp] theorem takeHalf_halfBytes (n : Half) (r : List Byte) (k : Half → List Byte → Decoded) :
    takeHalf (halfBytes n ++ r) k = k n r := by
  have h : n.toNat < 256 ^ 2 := n.isLt
  rw [takeHalf, halfBytes, takeNat_natBytes 2 _ h, BitVec.ofNat_toNat, BitVec.setWidth_eq]

/-! What a reader that succeeds has taken. -/

theorem takeByte_ok {r : List Byte} {k : Byte → List Byte → Decoded} {x : Instr × List Byte}
    (h : takeByte r k = .ok x) : ∃ b r', r = b :: r' ∧ k b r' = .ok x := by
  unfold takeByte at h
  split at h
  · exact ⟨_, _, rfl, h⟩
  · cases h

theorem takeNat_ok {n : Nat} {r : List Byte} {k : Nat → List Byte → Decoded} {x : Instr × List Byte}
    (h : takeNat n r k = .ok x) : ∃ a r', a < 256 ^ n ∧ r = natBytes n a ++ r' ∧ k a r' = .ok x := by
  unfold takeNat at h
  split at h
  · rename_i hn
    have hl : (r.take n).length = n := by simp [hn]
    refine ⟨bytesNat (r.take n), r.drop n, ?_, ?_, h⟩
    · simpa only [hl] using bytesNat_lt (r.take n)
    · have hb := natBytes_bytesNat (r.take n)
      rw [hl] at hb
      rw [hb, List.take_append_drop]
  · cases h

theorem takeHalf_ok {r : List Byte} {k : Half → List Byte → Decoded} {x : Instr × List Byte}
    (h : takeHalf r k = .ok x) : ∃ n r', r = halfBytes n ++ r' ∧ k n r' = .ok x := by
  obtain ⟨a, r', ha, hr, hk⟩ := takeNat_ok h
  refine ⟨BitVec.ofNat 16 a, r', ?_, hk⟩
  rw [hr, halfBytes, BitVec.toNat_ofNat, Nat.mod_eq_of_lt (show a < 2 ^ 16 from ha)]

end Sys2Proof
end

