-- ==== Sys2Proof/Laws/Memory.lean ====
section
/-! SUPPORT. The laws of byte memory: reading after writing, writing elsewhere, and the canonical form. -/

namespace Sys2Proof.Machine

theorem memRead_of_lt (m : Memory) (a : Nat) (h : ∀ c ∈ m, a < c.1) : memRead m a = blankByte := by
  induction m with
  | nil => rfl
  | cons c m ih =>
    obtain ⟨k, v⟩ := c
    have hk : a < k := h (k, v) (by simp)
    have hne : ¬ k = a := by omega
    simp only [memRead, hne, if_false]
    exact ih fun c hc => h c (by simp [hc])

theorem memRead_memInsert_self (m : Memory) (a : Nat) (b : Byte) : memRead (memInsert m a b) a = b := by
  induction m with
  | nil => simp [memInsert, memRead]
  | cons c m ih =>
    obtain ⟨k, v⟩ := c
    by_cases h1 : k < a
    · have : ¬ k = a := by omega
      simp [memInsert, h1, memRead, this, ih]
    · by_cases h2 : k = a <;> simp [memInsert, h1, h2, memRead]

theorem memRead_memInsert_ne (m : Memory) (a x : Nat) (b : Byte) (hx : x ≠ a) :
    memRead (memInsert m a b) x = memRead m x := by
  induction m with
  | nil => simp [memInsert, memRead, Ne.symm hx]
  | cons c m ih =>
    obtain ⟨k, v⟩ := c
    by_cases h1 : k < a
    · simp [memInsert, h1, memRead, ih]
    · by_cases h2 : k = a
      · subst h2; simp [memInsert, memRead, Ne.symm hx]
      · simp [memInsert, h1, h2, memRead, Ne.symm hx]

theorem memRead_memErase_self (m : Memory) (a : Nat) : memRead (memErase m a) a = blankByte := by
  induction m with
  | nil => rfl
  | cons c m ih =>
    obtain ⟨k, v⟩ := c
    unfold memErase at ih ⊢
    by_cases h : k = a
    · simp only [h, ne_eq, not_true_eq_false, decide_false, List.filter_cons, if_false, Bool.false_eq_true]
      exact ih
    · simp only [ne_eq, h, not_false_eq_true, decide_true, List.filter_cons, if_true, memRead, if_false]
      exact ih

theorem memRead_memErase_ne (m : Memory) (a x : Nat) (hx : x ≠ a) : memRead (memErase m a) x = memRead m x := by
  induction m with
  | nil => rfl
  | cons c m ih =>
    obtain ⟨k, v⟩ := c
    unfold memErase at ih ⊢
    by_cases h : k = a
    · subst h
      simp only [ne_eq, not_true_eq_false, decide_false, List.filter_cons, if_false, Bool.false_eq_true, memRead,
        Ne.symm hx]
      exact ih
    · simp only [ne_eq, h, not_false_eq_true, decide_true, List.filter_cons, if_true, memRead]
      split
      · rfl
      · exact ih

/-- A read of the byte just written gives it. -/
@[simp] theorem memRead_memWrite_self (m : Memory) (a : Nat) (b : Byte) : memRead (memWrite m a b) a = b := by
  unfold memWrite
  split
  · rename_i h; rw [memRead_memErase_self, h]
  · exact memRead_memInsert_self m a b

/-- A write leaves every other byte alone. -/
theorem memRead_memWrite_ne (m : Memory) (a x : Nat) (b : Byte) (hx : x ≠ a) :
    memRead (memWrite m a b) x = memRead m x := by
  unfold memWrite
  split
  · exact memRead_memErase_ne m a x hx
  · exact memRead_memInsert_ne m a x b hx

theorem mem_memInsert (m : Memory) (a : Nat) (b : Byte) (c : Host.Cell) (hc : c ∈ memInsert m a b) :
    c = (a, b) ∨ c ∈ m := by
  induction m with
  | nil => simpa [memInsert] using hc
  | cons d m ih =>
    obtain ⟨k, v⟩ := d
    unfold memInsert at hc
    split at hc
    · rcases List.mem_cons.mp hc with h | h
      · simp [h]
      · rcases ih h with h | h <;> simp [h]
    · split at hc
      · rcases List.mem_cons.mp hc with h | h <;> simp [h]
      · rcases List.mem_cons.mp hc with h | h
        · simp [h]
        · exact .inr h

theorem memInsert_wf (m : Memory) (a : Nat) (b : Byte) (hb : b ≠ blankByte) (h : Memory.wf m = true) :
    Memory.wf (memInsert m a b) = true := by
  simp only [Memory.wf, Bool.and_eq_true, decide_eq_true_eq, List.all_eq_true] at h ⊢
  obtain ⟨hp, hv⟩ := h
  refine ⟨?_, fun c hc => ?_⟩
  · induction m with
    | nil => simp [memInsert]
    | cons d m ih =>
      obtain ⟨k, v⟩ := d
      rw [List.pairwise_cons] at hp
      have ih := ih hp.2 fun c hc => hv c (by simp [hc])
      unfold memInsert
      split
      · rename_i hk
        refine List.pairwise_cons.mpr ⟨fun c hc => ?_, ih⟩
        rcases mem_memInsert m a b c hc with h | h
        · simpa [h] using hk
        · exact hp.1 c h
      · split
        · rename_i hk
          subst hk
          exact List.pairwise_cons.mpr ⟨hp.1, hp.2⟩
        · refine List.pairwise_cons.mpr ⟨fun c hc => ?_, List.pairwise_cons.mpr hp⟩
          rcases List.mem_cons.mp hc with h | h
          · subst h; simp; omega
          · have := hp.1 c h; simp at this ⊢; omega
  · rcases mem_memInsert m a b c hc with h | h
    · simpa [h] using hb
    · exact hv c h

theorem memErase_wf (m : Memory) (a : Nat) (h : Memory.wf m = true) : Memory.wf (memErase m a) = true := by
  simp only [Memory.wf, Bool.and_eq_true, decide_eq_true_eq, List.all_eq_true] at h ⊢
  exact ⟨h.1.filter _, fun c hc => h.2 c (List.mem_of_mem_filter hc)⟩

/-- Every write keeps the canonical form. -/
theorem memWrite_wf (m : Memory) (a : Nat) (b : Byte) (h : Memory.wf m = true) : Memory.wf (memWrite m a b) = true := by
  unfold memWrite
  split
  · exact memErase_wf m a h
  · rename_i hb; exact memInsert_wf m a b hb h

end Sys2Proof.Machine
end

