-- ==== Sys2Proof/Laws/State.lean ====
section
/-! SUPPORT. One lemma per field per state update, each true by rfl, so that no proof unfolds an update. -/

namespace Sys2Proof.Machine

@[simp] theorem State.setPort_params (s : State) (p : Nat) (port : Port) : (s.setPort p port).params = s.params := rfl
@[simp] theorem State.setPort_ports (s : State) (p : Nat) (port : Port) : (s.setPort p port).ports = s.ports.set p port := rfl
@[simp] theorem State.setPort_scr (s : State) (p : Nat) (port : Port) : (s.setPort p port).scr = s.scr := rfl
@[simp] theorem State.setPort_dmem (s : State) (p : Nat) (port : Port) : (s.setPort p port).dmem = s.dmem := rfl
@[simp] theorem State.setPort_tick (s : State) (p : Nat) (port : Port) : (s.setPort p port).tick = s.tick := rfl
@[simp] theorem State.setPort_frp (s : State) (p : Nat) (port : Port) : (s.setPort p port).frp = s.frp := rfl
@[simp] theorem State.setPort_dcm (s : State) (p : Nat) (port : Port) : (s.setPort p port).dcm = s.dcm := rfl
@[simp] theorem State.setPort_fg (s : State) (p : Nat) (port : Port) : (s.setPort p port).fg = s.fg := rfl
@[simp] theorem State.setPort_ret (s : State) (p : Nat) (port : Port) : (s.setPort p port).ret = s.ret := rfl
@[simp] theorem State.setPort_commands (s : State) (p : Nat) (port : Port) : (s.setPort p port).commands = s.commands := rfl
@[simp] theorem State.setPort_moves (s : State) (p : Nat) (port : Port) : (s.setPort p port).moves = s.moves := rfl
@[simp] theorem State.setPort_draws (s : State) (p : Nat) (port : Port) : (s.setPort p port).draws = s.draws := rfl
@[simp] theorem State.setPort_activePort (s : State) (p : Nat) (port : Port) : (s.setPort p port).activePort = s.activePort := rfl

@[simp] theorem State.setFrpPhase_params (s : State) (ph : FrpPhase) : (s.setFrpPhase ph).params = s.params := rfl
@[simp] theorem State.setFrpPhase_ports (s : State) (ph : FrpPhase) : (s.setFrpPhase ph).ports = s.ports := rfl
@[simp] theorem State.setFrpPhase_scr (s : State) (ph : FrpPhase) : (s.setFrpPhase ph).scr = s.scr := rfl
@[simp] theorem State.setFrpPhase_dmem (s : State) (ph : FrpPhase) : (s.setFrpPhase ph).dmem = s.dmem := rfl
@[simp] theorem State.setFrpPhase_tick (s : State) (ph : FrpPhase) : (s.setFrpPhase ph).tick = s.tick := rfl
@[simp] theorem State.setFrpPhase_frp (s : State) (ph : FrpPhase) : (s.setFrpPhase ph).frp = { s.frp with phase := ph } := rfl
@[simp] theorem State.setFrpPhase_dcm (s : State) (ph : FrpPhase) : (s.setFrpPhase ph).dcm = s.dcm := rfl
@[simp] theorem State.setFrpPhase_fg (s : State) (ph : FrpPhase) : (s.setFrpPhase ph).fg = s.fg := rfl
@[simp] theorem State.setFrpPhase_ret (s : State) (ph : FrpPhase) : (s.setFrpPhase ph).ret = s.ret := rfl
@[simp] theorem State.setFrpPhase_commands (s : State) (ph : FrpPhase) : (s.setFrpPhase ph).commands = s.commands := rfl
@[simp] theorem State.setFrpPhase_moves (s : State) (ph : FrpPhase) : (s.setFrpPhase ph).moves = s.moves := rfl
@[simp] theorem State.setFrpPhase_draws (s : State) (ph : FrpPhase) : (s.setFrpPhase ph).draws = s.draws := rfl
@[simp] theorem State.setFrpPhase_activePort (s : State) (ph : FrpPhase) : (s.setFrpPhase ph).activePort = s.activePort := rfl

@[simp] theorem State.setDcmPhase_params (s : State) (ph : DcmPhase) : (s.setDcmPhase ph).params = s.params := rfl
@[simp] theorem State.setDcmPhase_ports (s : State) (ph : DcmPhase) : (s.setDcmPhase ph).ports = s.ports := rfl
@[simp] theorem State.setDcmPhase_scr (s : State) (ph : DcmPhase) : (s.setDcmPhase ph).scr = s.scr := rfl
@[simp] theorem State.setDcmPhase_dmem (s : State) (ph : DcmPhase) : (s.setDcmPhase ph).dmem = s.dmem := rfl
@[simp] theorem State.setDcmPhase_tick (s : State) (ph : DcmPhase) : (s.setDcmPhase ph).tick = s.tick := rfl
@[simp] theorem State.setDcmPhase_frp (s : State) (ph : DcmPhase) : (s.setDcmPhase ph).frp = s.frp := rfl
@[simp] theorem State.setDcmPhase_dcm (s : State) (ph : DcmPhase) : (s.setDcmPhase ph).dcm = { s.dcm with phase := ph } := rfl
@[simp] theorem State.setDcmPhase_fg (s : State) (ph : DcmPhase) : (s.setDcmPhase ph).fg = s.fg := rfl
@[simp] theorem State.setDcmPhase_ret (s : State) (ph : DcmPhase) : (s.setDcmPhase ph).ret = s.ret := rfl
@[simp] theorem State.setDcmPhase_commands (s : State) (ph : DcmPhase) : (s.setDcmPhase ph).commands = s.commands := rfl
@[simp] theorem State.setDcmPhase_moves (s : State) (ph : DcmPhase) : (s.setDcmPhase ph).moves = s.moves := rfl
@[simp] theorem State.setDcmPhase_draws (s : State) (ph : DcmPhase) : (s.setDcmPhase ph).draws = s.draws := rfl
@[simp] theorem State.setDcmPhase_activePort (s : State) (ph : DcmPhase) : (s.setDcmPhase ph).activePort = s.activePort := rfl

@[simp] theorem State.setFg_params (s : State) (stack : List Frame) : (s.setFg stack).params = s.params := rfl
@[simp] theorem State.setFg_ports (s : State) (stack : List Frame) : (s.setFg stack).ports = s.ports := rfl
@[simp] theorem State.setFg_scr (s : State) (stack : List Frame) : (s.setFg stack).scr = s.scr := rfl
@[simp] theorem State.setFg_dmem (s : State) (stack : List Frame) : (s.setFg stack).dmem = s.dmem := rfl
@[simp] theorem State.setFg_tick (s : State) (stack : List Frame) : (s.setFg stack).tick = s.tick := rfl
@[simp] theorem State.setFg_frp (s : State) (stack : List Frame) : (s.setFg stack).frp = s.frp := rfl
@[simp] theorem State.setFg_dcm (s : State) (stack : List Frame) : (s.setFg stack).dcm = s.dcm := rfl
@[simp] theorem State.setFg_fg (s : State) (stack : List Frame) : (s.setFg stack).fg = stack := rfl
@[simp] theorem State.setFg_ret (s : State) (stack : List Frame) : (s.setFg stack).ret = s.ret := rfl
@[simp] theorem State.setFg_commands (s : State) (stack : List Frame) : (s.setFg stack).commands = s.commands := rfl
@[simp] theorem State.setFg_moves (s : State) (stack : List Frame) : (s.setFg stack).moves = s.moves := rfl
@[simp] theorem State.setFg_draws (s : State) (stack : List Frame) : (s.setFg stack).draws = s.draws := rfl
@[simp] theorem State.setFg_activePort (s : State) (stack : List Frame) : (s.setFg stack).activePort = s.activePort := rfl

@[simp] theorem State.returned_params (s : State) (st : Status) (v : ReturnValue) : (s.returned st v).params = s.params := rfl
@[simp] theorem State.returned_ports (s : State) (st : Status) (v : ReturnValue) : (s.returned st v).ports = s.ports := rfl
@[simp] theorem State.returned_scr (s : State) (st : Status) (v : ReturnValue) : (s.returned st v).scr = s.scr := rfl
@[simp] theorem State.returned_dmem (s : State) (st : Status) (v : ReturnValue) : (s.returned st v).dmem = s.dmem := rfl
@[simp] theorem State.returned_tick (s : State) (st : Status) (v : ReturnValue) : (s.returned st v).tick = s.tick := rfl
@[simp] theorem State.returned_frp (s : State) (st : Status) (v : ReturnValue) : (s.returned st v).frp = s.frp := rfl
@[simp] theorem State.returned_dcm (s : State) (st : Status) (v : ReturnValue) : (s.returned st v).dcm = s.dcm := rfl
@[simp] theorem State.returned_fg (s : State) (st : Status) (v : ReturnValue) : (s.returned st v).fg = [] := rfl
@[simp] theorem State.returned_ret (s : State) (st : Status) (v : ReturnValue) : (s.returned st v).ret = some ⟨st, v⟩ := rfl
@[simp] theorem State.returned_commands (s : State) (st : Status) (v : ReturnValue) : (s.returned st v).commands = s.commands := rfl
@[simp] theorem State.returned_moves (s : State) (st : Status) (v : ReturnValue) : (s.returned st v).moves = s.moves := rfl
@[simp] theorem State.returned_draws (s : State) (st : Status) (v : ReturnValue) : (s.returned st v).draws = s.draws := rfl
@[simp] theorem State.returned_activePort (s : State) (st : Status) (v : ReturnValue) : (s.returned st v).activePort = s.activePort := rfl

@[simp] theorem State.started_params (s : State) : (s.started).params = s.params := rfl
@[simp] theorem State.started_ports (s : State) : (s.started).ports = s.ports := rfl
@[simp] theorem State.started_scr (s : State) : (s.started).scr = s.scr := rfl
@[simp] theorem State.started_dmem (s : State) : (s.started).dmem = s.dmem := rfl
@[simp] theorem State.started_tick (s : State) : (s.started).tick = s.tick := rfl
@[simp] theorem State.started_frp (s : State) : (s.started).frp = s.frp := rfl
@[simp] theorem State.started_dcm (s : State) : (s.started).dcm = s.dcm := rfl
@[simp] theorem State.started_fg (s : State) : (s.started).fg = s.fg := rfl
@[simp] theorem State.started_ret (s : State) : (s.started).ret = none := rfl
@[simp] theorem State.started_commands (s : State) : (s.started).commands = s.commands := rfl
@[simp] theorem State.started_moves (s : State) : (s.started).moves = s.moves := rfl
@[simp] theorem State.started_draws (s : State) : (s.started).draws = s.draws := rfl
@[simp] theorem State.started_activePort (s : State) : (s.started).activePort = s.activePort := rfl

@[simp] theorem State.setDev_params (s : State) (p : Nat) (port : Port) (d : Device) : (s.setDev p port d).params = s.params := rfl
@[simp] theorem State.setDev_ports (s : State) (p : Nat) (port : Port) (d : Device) : (s.setDev p port d).ports = s.ports.set p { port with dev := d } := rfl
@[simp] theorem State.setDev_scr (s : State) (p : Nat) (port : Port) (d : Device) : (s.setDev p port d).scr = s.scr := rfl
@[simp] theorem State.setDev_dmem (s : State) (p : Nat) (port : Port) (d : Device) : (s.setDev p port d).dmem = s.dmem := rfl
@[simp] theorem State.setDev_tick (s : State) (p : Nat) (port : Port) (d : Device) : (s.setDev p port d).tick = s.tick := rfl
@[simp] theorem State.setDev_frp (s : State) (p : Nat) (port : Port) (d : Device) : (s.setDev p port d).frp = s.frp := rfl
@[simp] theorem State.setDev_dcm (s : State) (p : Nat) (port : Port) (d : Device) : (s.setDev p port d).dcm = s.dcm := rfl
@[simp] theorem State.setDev_fg (s : State) (p : Nat) (port : Port) (d : Device) : (s.setDev p port d).fg = s.fg := rfl
@[simp] theorem State.setDev_ret (s : State) (p : Nat) (port : Port) (d : Device) : (s.setDev p port d).ret = s.ret := rfl
@[simp] theorem State.setDev_commands (s : State) (p : Nat) (port : Port) (d : Device) : (s.setDev p port d).commands = s.commands := rfl
@[simp] theorem State.setDev_moves (s : State) (p : Nat) (port : Port) (d : Device) : (s.setDev p port d).moves = s.moves := rfl
@[simp] theorem State.setDev_draws (s : State) (p : Nat) (port : Port) (d : Device) : (s.setDev p port d).draws = s.draws := rfl
@[simp] theorem State.setDev_activePort (s : State) (p : Nat) (port : Port) (d : Device) : (s.setDev p port d).activePort = s.activePort := rfl

@[simp] theorem drawWresp_params (s : State) : (drawWresp s).params = s.params := rfl
@[simp] theorem drawWresp_ports (s : State) : (drawWresp s).ports = s.ports := rfl
@[simp] theorem drawWresp_dmem (s : State) : (drawWresp s).dmem = s.dmem := rfl
@[simp] theorem drawWresp_tick (s : State) : (drawWresp s).tick = s.tick := rfl
@[simp] theorem drawWresp_frp (s : State) : (drawWresp s).frp = s.frp := rfl
@[simp] theorem drawWresp_dcm (s : State) : (drawWresp s).dcm = s.dcm := rfl
@[simp] theorem drawWresp_fg (s : State) : (drawWresp s).fg = s.fg := rfl
@[simp] theorem drawWresp_ret (s : State) : (drawWresp s).ret = s.ret := rfl
@[simp] theorem drawWresp_commands (s : State) : (drawWresp s).commands = s.commands := rfl
@[simp] theorem drawWresp_moves (s : State) : (drawWresp s).moves = s.moves := rfl
@[simp] theorem drawWresp_activePort (s : State) : (drawWresp s).activePort = s.activePort := rfl
@[simp] theorem drawWresp_draws (s : State) : (drawWresp s).draws = s.draws + 2 := rfl

@[simp] theorem drawDcmBuf_params (s : State) : (drawDcmBuf s).params = s.params := rfl
@[simp] theorem drawDcmBuf_ports (s : State) : (drawDcmBuf s).ports = s.ports := rfl
@[simp] theorem drawDcmBuf_dmem (s : State) : (drawDcmBuf s).dmem = s.dmem := rfl
@[simp] theorem drawDcmBuf_tick (s : State) : (drawDcmBuf s).tick = s.tick := rfl
@[simp] theorem drawDcmBuf_frp (s : State) : (drawDcmBuf s).frp = s.frp := rfl
@[simp] theorem drawDcmBuf_dcm (s : State) : (drawDcmBuf s).dcm = s.dcm := rfl
@[simp] theorem drawDcmBuf_fg (s : State) : (drawDcmBuf s).fg = s.fg := rfl
@[simp] theorem drawDcmBuf_ret (s : State) : (drawDcmBuf s).ret = s.ret := rfl
@[simp] theorem drawDcmBuf_commands (s : State) : (drawDcmBuf s).commands = s.commands := rfl
@[simp] theorem drawDcmBuf_moves (s : State) : (drawDcmBuf s).moves = s.moves := rfl
@[simp] theorem drawDcmBuf_activePort (s : State) : (drawDcmBuf s).activePort = s.activePort := rfl
@[simp] theorem drawDcmBuf_draws (s : State) : (drawDcmBuf s).draws = s.draws + 3 := rfl

@[simp] theorem Port.startTx_rx (port : Port) (bytes : List Byte) : (port.startTx bytes).rx = port.rx := rfl
@[simp] theorem Port.startTx_initDone (port : Port) (bytes : List Byte) : (port.startTx bytes).initDone = port.initDone := rfl
@[simp] theorem Port.startTx_txBegun (port : Port) (bytes : List Byte) : (port.startTx bytes).txBegun = true := rfl
@[simp] theorem Port.startTx_rxBegun (port : Port) (bytes : List Byte) : (port.startTx bytes).rxBegun = port.rxBegun := rfl
@[simp] theorem Port.startTx_line (port : Port) (bytes : List Byte) : (port.startTx bytes).line = port.line := rfl
@[simp] theorem Port.startTx_periph (port : Port) (bytes : List Byte) : (port.startTx bytes).periph = port.periph := rfl
@[simp] theorem Port.startTx_lineOut (port : Port) (bytes : List Byte) : (port.startTx bytes).lineOut = port.lineOut := rfl
@[simp] theorem Port.startTx_wireOut (port : Port) (bytes : List Byte) : (port.startTx bytes).wireOut = port.wireOut := rfl
@[simp] theorem Port.startTx_wireIn (port : Port) (bytes : List Byte) : (port.startTx bytes).wireIn = port.wireIn := rfl
@[simp] theorem Port.startTx_dev (port : Port) (bytes : List Byte) : (port.startTx bytes).dev = port.dev := rfl

@[simp] theorem Port.startRx_tx (port : Port) (dest : Dest) (n : Half) : (port.startRx dest n).tx = port.tx := rfl
@[simp] theorem Port.startRx_initDone (port : Port) (dest : Dest) (n : Half) : (port.startRx dest n).initDone = port.initDone := rfl
@[simp] theorem Port.startRx_txBegun (port : Port) (dest : Dest) (n : Half) : (port.startRx dest n).txBegun = port.txBegun := rfl
@[simp] theorem Port.startRx_rxBegun (port : Port) (dest : Dest) (n : Half) : (port.startRx dest n).rxBegun = true := rfl
@[simp] theorem Port.startRx_line (port : Port) (dest : Dest) (n : Half) : (port.startRx dest n).line = port.line := rfl
@[simp] theorem Port.startRx_periph (port : Port) (dest : Dest) (n : Half) : (port.startRx dest n).periph = port.periph := rfl
@[simp] theorem Port.startRx_lineOut (port : Port) (dest : Dest) (n : Half) : (port.startRx dest n).lineOut = port.lineOut := rfl
@[simp] theorem Port.startRx_wireOut (port : Port) (dest : Dest) (n : Half) : (port.startRx dest n).wireOut = port.wireOut := rfl
@[simp] theorem Port.startRx_wireIn (port : Port) (dest : Dest) (n : Half) : (port.startRx dest n).wireIn = port.wireIn := rfl
@[simp] theorem Port.startRx_dev (port : Port) (dest : Dest) (n : Half) : (port.startRx dest n).dev = port.dev := rfl

@[simp] theorem Port.abortRx_tx (port : Port) : (port.abortRx).tx = port.tx := rfl
@[simp] theorem Port.abortRx_initDone (port : Port) : (port.abortRx).initDone = port.initDone := rfl
@[simp] theorem Port.abortRx_txBegun (port : Port) : (port.abortRx).txBegun = port.txBegun := rfl
@[simp] theorem Port.abortRx_rxBegun (port : Port) : (port.abortRx).rxBegun = port.rxBegun := rfl
@[simp] theorem Port.abortRx_line (port : Port) : (port.abortRx).line = port.line := rfl
@[simp] theorem Port.abortRx_periph (port : Port) : (port.abortRx).periph = port.periph := rfl
@[simp] theorem Port.abortRx_lineOut (port : Port) : (port.abortRx).lineOut = port.lineOut := rfl
@[simp] theorem Port.abortRx_wireOut (port : Port) : (port.abortRx).wireOut = port.wireOut := rfl
@[simp] theorem Port.abortRx_wireIn (port : Port) : (port.abortRx).wireIn = port.wireIn := rfl
@[simp] theorem Port.abortRx_dev (port : Port) : (port.abortRx).dev = port.dev := rfl

@[simp] theorem Port.bringUp_line (port : Port) : (port.bringUp).line = port.line := rfl
@[simp] theorem Port.bringUp_periph (port : Port) : (port.bringUp).periph = port.periph := rfl
@[simp] theorem Port.bringUp_lineOut (port : Port) : (port.bringUp).lineOut = port.lineOut := rfl
@[simp] theorem Port.bringUp_wireOut (port : Port) : (port.bringUp).wireOut = port.wireOut := rfl
@[simp] theorem Port.bringUp_wireIn (port : Port) : (port.bringUp).wireIn = port.wireIn := rfl
@[simp] theorem Port.bringUp_dev (port : Port) : (port.bringUp).dev = port.dev := rfl

@[simp] theorem Port.devTick_tx (port : Port) : (port.devTick).tx = port.tx := rfl
@[simp] theorem Port.devTick_rx (port : Port) : (port.devTick).rx = port.rx := rfl
@[simp] theorem Port.devTick_initDone (port : Port) : (port.devTick).initDone = port.initDone := rfl
@[simp] theorem Port.devTick_txBegun (port : Port) : (port.devTick).txBegun = port.txBegun := rfl
@[simp] theorem Port.devTick_rxBegun (port : Port) : (port.devTick).rxBegun = port.rxBegun := rfl
@[simp] theorem Port.devTick_line (port : Port) : (port.devTick).line = port.line := rfl
@[simp] theorem Port.devTick_periph (port : Port) : (port.devTick).periph = port.periph := rfl
@[simp] theorem Port.devTick_lineOut (port : Port) : (port.devTick).lineOut = port.lineOut := rfl
@[simp] theorem Port.devTick_wireOut (port : Port) : (port.devTick).wireOut = port.wireOut := rfl
@[simp] theorem Port.devTick_wireIn (port : Port) : (port.devTick).wireIn = port.wireIn := rfl

@[simp] theorem Port.completeTx_rx (port : Port) : (port.completeTx).rx = port.rx := rfl
@[simp] theorem Port.completeTx_initDone (port : Port) : (port.completeTx).initDone = port.initDone := rfl
@[simp] theorem Port.completeTx_txBegun (port : Port) : (port.completeTx).txBegun = port.txBegun := rfl
@[simp] theorem Port.completeTx_rxBegun (port : Port) : (port.completeTx).rxBegun = port.rxBegun := rfl
@[simp] theorem Port.completeTx_line (port : Port) : (port.completeTx).line = port.line := rfl
@[simp] theorem Port.completeTx_lineOut (port : Port) : (port.completeTx).lineOut = port.lineOut := rfl
@[simp] theorem Port.completeTx_wireOut (port : Port) : (port.completeTx).wireOut = port.wireOut := rfl
@[simp] theorem Port.completeTx_wireIn (port : Port) : (port.completeTx).wireIn = port.wireIn := rfl
@[simp] theorem Port.completeTx_dev (port : Port) : (port.completeTx).dev = port.dev := rfl

@[simp] theorem Port.dropRx_tx (port : Port) : (port.dropRx).tx = port.tx := rfl
@[simp] theorem Port.dropRx_initDone (port : Port) : (port.dropRx).initDone = port.initDone := rfl
@[simp] theorem Port.dropRx_txBegun (port : Port) : (port.dropRx).txBegun = port.txBegun := rfl
@[simp] theorem Port.dropRx_rxBegun (port : Port) : (port.dropRx).rxBegun = port.rxBegun := rfl
@[simp] theorem Port.dropRx_line (port : Port) : (port.dropRx).line = port.line := rfl
@[simp] theorem Port.dropRx_lineOut (port : Port) : (port.dropRx).lineOut = port.lineOut := rfl
@[simp] theorem Port.dropRx_wireOut (port : Port) : (port.dropRx).wireOut = port.wireOut := rfl
@[simp] theorem Port.dropRx_dev (port : Port) : (port.dropRx).dev = port.dev := rfl

@[simp] theorem Port.handOver_rx (port : Port) (b : Byte) : (port.handOver b).rx = port.rx := by
  unfold Port.handOver; split <;> rfl
@[simp] theorem Port.handOver_initDone (port : Port) (b : Byte) : (port.handOver b).initDone = port.initDone := by
  unfold Port.handOver; split <;> rfl
@[simp] theorem Port.handOver_txBegun (port : Port) (b : Byte) : (port.handOver b).txBegun = port.txBegun := by
  unfold Port.handOver; split <;> rfl
@[simp] theorem Port.handOver_rxBegun (port : Port) (b : Byte) : (port.handOver b).rxBegun = port.rxBegun := by
  unfold Port.handOver; split <;> rfl
@[simp] theorem Port.handOver_line (port : Port) (b : Byte) : (port.handOver b).line = port.line := by
  unfold Port.handOver; split <;> rfl
@[simp] theorem Port.handOver_lineOut (port : Port) (b : Byte) : (port.handOver b).lineOut = port.lineOut := by
  unfold Port.handOver; split <;> rfl
@[simp] theorem Port.handOver_wireIn (port : Port) (b : Byte) : (port.handOver b).wireIn = port.wireIn := by
  unfold Port.handOver; split <;> rfl
@[simp] theorem Port.handOver_dev (port : Port) (b : Byte) : (port.handOver b).dev = port.dev := by
  unfold Port.handOver; split <;> rfl
@[simp] theorem Port.countRx_tx (port : Port) : port.countRx.tx = port.tx := by
  unfold Port.countRx; split <;> rfl
@[simp] theorem Port.countRx_initDone (port : Port) : port.countRx.initDone = port.initDone := by
  unfold Port.countRx; split <;> rfl
@[simp] theorem Port.countRx_txBegun (port : Port) : port.countRx.txBegun = port.txBegun := by
  unfold Port.countRx; split <;> rfl
@[simp] theorem Port.countRx_rxBegun (port : Port) : port.countRx.rxBegun = port.rxBegun := by
  unfold Port.countRx; split <;> rfl
@[simp] theorem Port.countRx_line (port : Port) : port.countRx.line = port.line := by
  unfold Port.countRx; split <;> rfl
@[simp] theorem Port.countRx_lineOut (port : Port) : port.countRx.lineOut = port.lineOut := by
  unfold Port.countRx; split <;> rfl
@[simp] theorem Port.countRx_wireOut (port : Port) : port.countRx.wireOut = port.wireOut := by
  unfold Port.countRx; split <;> rfl
@[simp] theorem Port.countRx_dev (port : Port) : port.countRx.dev = port.dev := by
  unfold Port.countRx; split <;> rfl

end Sys2Proof.Machine
end

