-- ==== Sys2Proof/Laws/Ops.lean ====
section
/-! SUPPORT. For each shared operation one lemma that says once everything it can do. -/

namespace Sys2Proof.Machine

theorem State.setPort_getElem?_self (s : State) (p : Nat) (port q : Port) (h : s.ports[p]? = some q) :
    (s.setPort p port).ports[p]? = some port := by
  obtain ⟨hp, -⟩ := List.getElem?_eq_some_iff.mp h
  simp [hp]

theorem State.setPort_getElem?_ne (s : State) (p q : Nat) (port : Port) (h : q ≠ p) :
    (s.setPort p port).ports[q]? = s.ports[q]? := by
  simp [List.getElem?_set_ne (Ne.symm h)]

@[simp] theorem State.setPort_nPorts (s : State) (p : Nat) (port : Port) : (s.setPort p port).nPorts = s.nPorts := by
  simp [State.nPorts]

/-- A port of the state after one was replaced: the new one, or one of before. -/
theorem State.mem_setPort (s : State) (p : Nat) (port q : Port) (h : q ∈ (s.setPort p port).ports) :
    q = port ∨ q ∈ s.ports := by
  rcases List.mem_or_eq_of_mem_set h with h | h
  · exact .inr h
  · exact .inl h

theorem foreground_idle (s : State) (k : Result) (h : s.fg = []) : foreground s k = k := by simp [foreground, h]

/-- A host operation answers a next state only from an idle foreground. -/
theorem foreground_next (s t : State) (k : Result) (h : foreground s k = .next t) : s.fg = [] ∧ k = .next t := by
  unfold foreground at h
  split at h
  · exact ⟨‹_›, h⟩
  · cases h

theorem onPort_some (p : Byte) (s : State) (k : Port → Result) (port : Port) (h : s.ports[p.toNat]? = some port) :
    onPort p s k = k port := by simp [onPort, h]

theorem onPort_none (p : Byte) (s : State) (k : Port → Result) (h : s.nPorts ≤ p.toNat) :
    onPort p s k = .next (s.returned .invalidParam .none) := by
  have : s.ports[p.toNat]? = none := List.getElem?_eq_none_iff.mpr h
  simp [onPort, this]

/-- The port check answers InvalidParam for no port, and else what the operation answers on the port. -/
theorem onPort_cases (p : Byte) (s : State) (k : Port → Result) :
    (s.nPorts ≤ p.toNat ∧ onPort p s k = .next (s.returned .invalidParam .none)) ∨
    (∃ port, s.ports[p.toNat]? = some port ∧ onPort p s k = k port) := by
  cases h : s.ports[p.toNat]? with
  | none => exact .inl ⟨List.getElem?_eq_none_iff.mp h, by simp [onPort, h]⟩
  | some port => exact .inr ⟨port, rfl, by simp [onPort, h]⟩

/-- An interrupt runs nothing, or the arm of a pending event of an existing port. -/
theorem takeInterrupt_cases (p : Byte) (s : State) (pending : Port → Bool) (arm : Port → Result) :
    (takeInterrupt p s pending arm = .next s ∧ ∀ port, s.ports[p.toNat]? = some port → pending port = false) ∨
    (∃ port, s.ports[p.toNat]? = some port ∧ pending port = true ∧ takeInterrupt p s pending arm = arm port) := by
  cases h : s.ports[p.toNat]? with
  | none => exact .inl ⟨by simp [takeInterrupt, h], by simp⟩
  | some port =>
    cases hp : pending port with
    | true => exact .inr ⟨port, rfl, hp, by simp [takeInterrupt, h, hp]⟩
    | false => exact .inl ⟨by simp [takeInterrupt, h, hp], by simp [hp]⟩

/-- BEGIN_TX succeeds on an idle port with a count in range and starts the transfer, or changes nothing. -/
theorem beginTx_cases (p : Nat) (bytes : List Byte) (s : State) :
    (∃ port, s.ports[p]? = some port ∧ bytes.length ≠ 0 ∧ bytes.length ≤ s.params.txCap ∧ port.tx.status = .idle ∧
      beginTx p bytes s = (.success, s.setPort p (port.startTx bytes))) ∨
    (∃ st, st ≠ .success ∧ beginTx p bytes s = (st, s)) := by
  cases h : s.ports[p]? with
  | none => exact .inr ⟨.invalidParam, by simp, by simp [beginTx, h]⟩
  | some port =>
    by_cases hn : bytes.length = 0 ∨ s.params.txCap < bytes.length
    · exact .inr ⟨.invalidParam, by simp, by simp only [beginTx, h, txCheck, if_pos hn]⟩
    · cases hs : port.tx.status with
      | busy => exact .inr ⟨.error, by simp, by simp only [beginTx, h, txCheck, if_neg hn, hs]⟩
      | idle =>
        refine .inl ⟨port, rfl, by omega, by omega, hs, ?_⟩
        simp only [beginTx, h, txCheck, if_neg hn, hs]

/-- BEGIN_RX succeeds on an idle port with a destination and a count and starts the receive, or changes nothing. -/
theorem beginRx_cases (p : Nat) (dest : Dest) (n : Half) (s : State) :
    (∃ port, s.ports[p]? = some port ∧ dest ≠ Dest.null ∧ n ≠ 0 ∧ port.rx.status = .idle ∧
      beginRx p dest n s = (.success, s.setPort p (port.startRx dest n))) ∨
    (∃ st, st ≠ .success ∧ beginRx p dest n s = (st, s)) := by
  cases h : s.ports[p]? with
  | none => exact .inr ⟨.invalidParam, by simp, by simp [beginRx, h]⟩
  | some port =>
    by_cases hn : dest = Dest.null ∨ n = 0
    · exact .inr ⟨.invalidParam, by simp, by simp only [beginRx, h, rxCheck, if_pos hn]⟩
    · cases hs : port.rx.status with
      | busy => exact .inr ⟨.error, by simp, by simp only [beginRx, h, rxCheck, if_neg hn, hs]⟩
      | idle =>
        refine .inl ⟨port, rfl, fun h => hn (.inl h), fun h => hn (.inr h), hs, ?_⟩
        simp only [beginRx, h, rxCheck, if_neg hn, hs]

/-- ABORT_RX clears the receive half of an existing port. -/
theorem abortRx_cases (p : Nat) (s : State) :
    (s.ports[p]? = none ∧ abortRx p s = s) ∨
    (∃ port, s.ports[p]? = some port ∧ abortRx p s = s.setPort p port.abortRx) := by
  cases h : s.ports[p]? with
  | none => exact .inl ⟨rfl, by simp [abortRx, h]⟩
  | some port => exact .inr ⟨port, rfl, by simp [abortRx, h]⟩

/-- An environment step changes one port at most. -/
theorem envStep_cases (p : Nat) (f : Port → Port) (s : State) :
    envStep p f s = s ∨ (∃ port, s.ports[p]? = some port ∧ envStep p f s = s.setPort p (f port)) := by
  cases h : s.ports[p]? with
  | none => exact .inl (by simp [envStep, h])
  | some port => exact .inr ⟨port, rfl, by simp [envStep, h]⟩

/-- What a read of a range answers: the bytes in rising order, when the range lies inside DMEM. -/
theorem readDmem_ok (s : State) (a n : Nat) (h : a + n ≤ s.dmemTop) :
    readDmem s a n = .ok ((List.range n).map fun i => memRead s.dmem (a + i)) := by simp [readDmem, h]

theorem readDmem_length (s : State) (a n : Nat) (bytes : List Byte) (h : readDmem s a n = .ok bytes) :
    bytes.length = n := by
  unfold readDmem at h
  split at h
  · cases h; simp
  · cases h

theorem readDmem_error (s : State) (a n : Nat) (f : Fault) (h : readDmem s a n = .error f) : f = .outsideDmem := by
  unfold readDmem at h
  split at h
  · cases h
  · cases h; rfl

/-- A byte write that is inside its space changes that byte of DMEM or of SCR and nothing else. -/
theorem writeByte_cases (s : State) (sp : Space) (a : Nat) (b : Byte) :
    (sp = .dmem ∧ a < s.dmemTop ∧ writeByte s sp a b = .ok { s with dmem := memWrite s.dmem a b }) ∨
    (sp = .dmem ∧ s.dmemTop ≤ a ∧ writeByte s sp a b = .error .outsideDmem) ∨
    (sp = .scr ∧ a < 5 ∧ writeByte s sp a b = .ok { s with scr := s.scr.setIfInBounds a b }) ∨
    (sp = .scr ∧ 5 ≤ a ∧ writeByte s sp a b = .error .outsideScr) := by
  cases sp with
  | dmem =>
    by_cases h : a < s.dmemTop
    · exact .inl ⟨rfl, h, by simp [writeByte, h]⟩
    · exact .inr (.inl ⟨rfl, by omega, by simp [writeByte, h]⟩)
  | scr =>
    by_cases h : a < 5
    · exact .inr (.inr (.inl ⟨rfl, h, by simp [writeByte, h]⟩))
    · exact .inr (.inr (.inr ⟨rfl, by omega, by simp [writeByte, h]⟩))

/-- Issuing READ_REG writes the FRP and FG's stack and nothing else. -/
theorem issueRead_eq (p addr len : Byte) (buf : FrpBuf) (callers : List Frame) (s : State) :
    issueRead p addr len buf callers s =
      { s with frp := if frpValid s p len buf then s.frp.issued .read p addr len buf
                      else { s.frp with phase := .done .invalidParam },
               fg := .frp :: callers } := by
  unfold issueRead
  split <;> rfl

/-- Issuing WRITE_REG writes the FRP and FG's stack, and draws WRESP when the operands are valid. -/
theorem issueWrite_cases (p addr len : Byte) (buf : FrpBuf) (callers : List Frame) (s : State) :
    (frpValid s p len buf = true ∧ issueWrite p addr len buf callers s =
      drawWresp { s with frp := s.frp.issued .write p addr len buf, fg := .frp :: callers }) ∨
    (frpValid s p len buf = false ∧ issueWrite p addr len buf callers s =
      { s with frp := { s.frp with phase := .done .invalidParam }, fg := .frp :: callers }) := by
  unfold issueWrite
  cases h : frpValid s p len buf
  · exact .inr ⟨rfl, rfl⟩
  · exact .inl ⟨rfl, rfl⟩

/-- Issuing a DCM pass writes the DCM and FG's stack and nothing else. -/
theorem issuePass_cases (k : Pass) (p target : Byte) (callers : List Frame) (s : State) :
    (passValid s k p target = true ∧ issuePass k p target callers s =
      { s with dcm := { s.dcm with phase := .readCurrent, port := p,
                                   target := if k = .getMode then s.dcm.target else target },
               fg := .dcm k :: callers }) ∨
    (passValid s k p target = false ∧ issuePass k p target callers s =
      { s with dcm := { s.dcm with phase := .done .invalidParam }, fg := .dcm k :: callers }) := by
  unfold issuePass
  cases h : passValid s k p target
  · exact .inr ⟨rfl, rfl⟩
  · exact .inl ⟨rfl, rfl⟩

/-- The classification of a header writes the FRP's phase and attempt and nothing else. -/
theorem evaluateHeader_cases (b0 b1 : Byte) (s : State) :
    (s.frp.phase ≠ .evaluate ∧ evaluateHeader b0 b1 s = s) ∨
    (s.frp.phase = .evaluate ∧ responseIsError s.frp.kind b0 b1 = false ∧
      evaluateHeader b0 b1 s = s.setFrpPhase (.done .success)) ∨
    (s.frp.phase = .evaluate ∧ responseIsError s.frp.kind b0 b1 = true ∧ s.frp.attempt < maxRetries ∧
      evaluateHeader b0 b1 s = { s with frp := { s.frp with phase := .compose, attempt := s.frp.attempt + 1 } }) ∨
    (s.frp.phase = .evaluate ∧ responseIsError s.frp.kind b0 b1 = true ∧ ¬ s.frp.attempt < maxRetries ∧
      evaluateHeader b0 b1 s = s.setFrpPhase (.done .error)) := by
  by_cases hp : s.frp.phase = .evaluate
  · cases he : responseIsError s.frp.kind b0 b1 with
    | false => exact .inr (.inl ⟨hp, rfl, by simp [evaluateHeader, hp, he]⟩)
    | true =>
      by_cases ha : s.frp.attempt < maxRetries
      · exact .inr (.inr (.inl ⟨hp, rfl, ha, by simp [evaluateHeader, hp, he, ha]⟩))
      · exact .inr (.inr (.inr ⟨hp, rfl, ha, by simp [evaluateHeader, hp, he, ha]⟩))
  · refine .inl ⟨hp, ?_⟩
    unfold evaluateHeader
    split
    · contradiction
    · rfl

/-- What everything that only moves the sequencers leaves alone. -/
def SequencerOnly (s t : State) : Prop :=
  t.params = s.params ∧ t.ports = s.ports ∧ t.dmem = s.dmem ∧ t.tick = s.tick ∧ t.commands = s.commands ∧
  t.moves = s.moves ∧ t.activePort = s.activePort

theorem SequencerOnly.refl (s : State) : SequencerOnly s s := ⟨rfl, rfl, rfl, rfl, rfl, rfl, rfl⟩

theorem issueRead_sequencerOnly (p addr len : Byte) (buf : FrpBuf) (callers : List Frame) (s : State) :
    SequencerOnly s (issueRead p addr len buf callers s) := by
  rw [issueRead_eq]; exact SequencerOnly.refl s

theorem issueWrite_sequencerOnly (p addr len : Byte) (buf : FrpBuf) (callers : List Frame) (s : State) :
    SequencerOnly s (issueWrite p addr len buf callers s) := by
  rcases issueWrite_cases p addr len buf callers s with ⟨-, h⟩ | ⟨-, h⟩ <;> rw [h] <;> exact SequencerOnly.refl s

theorem issuePass_sequencerOnly (k : Pass) (p target : Byte) (callers : List Frame) (s : State) :
    SequencerOnly s (issuePass k p target callers s) := by
  rcases issuePass_cases k p target callers s with ⟨-, h⟩ | ⟨-, h⟩ <;> rw [h] <;> exact SequencerOnly.refl s

theorem evaluateHeader_sequencerOnly (b0 b1 : Byte) (s : State) : SequencerOnly s (evaluateHeader b0 b1 s) := by
  rcases evaluateHeader_cases b0 b1 s with ⟨-, h⟩ | ⟨-, -, h⟩ | ⟨-, -, -, h⟩ | ⟨-, -, -, h⟩ <;> rw [h] <;>
    exact SequencerOnly.refl s

/-- Returning a status to a caller moves the sequencers, FG's stack, the result and the scratch, and nothing else. -/
theorem deliver_sequencerOnly (stack : List Frame) (st : Status) (v : ReturnValue) (s t : State)
    (h : deliver stack st v s = .next t) : SequencerOnly s t := by
  fun_induction deliver stack st v s with
  | case1 => cases h; exact SequencerOnly.refl _
  | case2 => cases h; exact SequencerOnly.refl _
  | case3 => cases h; exact SequencerOnly.refl _
  | case4 => cases h; exact SequencerOnly.refl _
  | case5 => cases h
  | case6 => rename_i ih; exact ih h
  | case7 => rename_i ih; exact ih h
  | case8 =>
    cases h
    exact issuePass_sequencerOnly _ _ _ _ _
  | case9 => rename_i ih; exact ih h
  | case10 => rename_i ih; exact ih h
  | case11 => rename_i ih; exact ih h
  | case12 => rename_i ih; exact ih h
  | case13 => cases h; exact issuePass_sequencerOnly _ _ _ _ _
  | case14 => rename_i ih; exact ih h
  | case15 => cases h; exact issueWrite_sequencerOnly _ _ _ _ _ _
  | case16 => rename_i ih; exact ih h
  | case17 => cases h; exact issuePass_sequencerOnly _ _ _ _ _
  | case18 => rename_i ih; exact ih h
  | case19 => cases h
  | case20 => cases h

end Sys2Proof.Machine
end

