-- ==== Sys2Proof/Laws/PerInstr.lean ====
section
/-! SUPPORT. A property of every instruction's encoding, lemma by lemma: the leading bits are the ones the row of
spec/opcode_table.json fixes (its "fixed" field, from match and mask; R101, R102, R104, R113, R114). -/

namespace Sys2Proof.Laws

/-- The leading `n` bytes as a number, the first the most significant (R100). -/
def headerNumber (n : Nat) (bytes : List Byte) : Nat := (bytes.take n).foldl (fun acc b => acc * 256 + b.toNat) 0

/-- The fixed field of an instruction's row: header bytes, lowest fixed bit, value. RSP's row fixes none. -/
def rowFixed : Instr → Option (Nat × Nat × Nat)
  | .portInit _ => some (1, 0, 0x0)
  | .beginTx _ _ _ => some (1, 0, 0x1)
  | .beginRx _ _ _ => some (1, 0, 0x2)
  | .abortRx _ => some (1, 0, 0x3)
  | .txStatus _ => some (1, 0, 0x4)
  | .rxStatus _ => some (1, 0, 0x5)
  | .computeTimeout _ _ _ _ _ _ => some (1, 0, 0x6)
  | .delay _ => some (1, 0, 0x7)
  | .readReg _ _ _ _ => some (1, 0, 0x10)
  | .writeReg _ _ _ _ => some (1, 0, 0x11)
  | .selectPage _ _ => some (1, 0, 0x20)
  | .getMode _ => some (1, 0, 0x21)
  | .setMode _ _ => some (1, 0, 0x22)
  | .ensureConfig _ => some (1, 0, 0x23)
  | .restoreMode _ _ => some (1, 0, 0x24)
  | .settingsWrite _ _ _ _ _ => some (1, 0, 0x25)
  | .irqTxe _ => some (1, 0, 0x80)
  | .irqTc _ => some (1, 0, 0x81)
  | .irqRxne _ => some (1, 0, 0x82)
  | .tick => some (1, 0, 0x83)
  | .rd _ _ => some (4, 16, 0xaa01)
  | .wr _ _ _ => some (4, 16, 0xaa00)
  | .rsp _ _ => none
  | .rspErr _ => some (2, 8, 0xee)

namespace FixedBits

/-- The encoding's leading bits are the row's fixed ones, whatever the size of an address; a RSP header's byte 0 is not
the sentinel. -/
def Statement (i : Instr) : Prop :=
  match rowFixed i with
  | some (n, lo, value) => ∀ size, headerNumber n (encode size i) / 2 ^ lo = value
  | none => ∀ size, i.wf size = true → (encode size i).head? ≠ some sentinel

theorem portInit (p : Byte) : Statement (.portInit p) := by
  simp [Statement, rowFixed, headerNumber, encode]
theorem beginTx (p : Byte) (src : Nat) (n : Half) : Statement (.beginTx p src n) := by
  simp [Statement, rowFixed, headerNumber, encode]
theorem beginRx (p : Byte) (dst : Nat) (n : Half) : Statement (.beginRx p dst n) := by
  simp [Statement, rowFixed, headerNumber, encode]
theorem abortRx (p : Byte) : Statement (.abortRx p) := by
  simp [Statement, rowFixed, headerNumber, encode]
theorem txStatus (p : Byte) : Statement (.txStatus p) := by
  simp [Statement, rowFixed, headerNumber, encode]
theorem rxStatus (p : Byte) : Statement (.rxStatus p) := by
  simp [Statement, rowFixed, headerNumber, encode]
theorem computeTimeout (b : Nat) (w : Nat) (q : Nat) (h : Nat) (n : Nat) (m : Margin) : Statement (.computeTimeout b w q h n m) := by
  simp [Statement, rowFixed, headerNumber, encode]
theorem delay (n : Half) : Statement (.delay n) := by
  simp [Statement, rowFixed, headerNumber, encode]
theorem readReg (p : Byte) (addr : Byte) (len : Byte) (out : Nat) : Statement (.readReg p addr len out) := by
  simp [Statement, rowFixed, headerNumber, encode]
theorem writeReg (p : Byte) (addr : Byte) (len : Byte) (payload : Nat) : Statement (.writeReg p addr len payload) := by
  simp [Statement, rowFixed, headerNumber, encode]
theorem selectPage (p : Byte) (page : Byte) : Statement (.selectPage p page) := by
  simp [Statement, rowFixed, headerNumber, encode]
theorem getMode (p : Byte) : Statement (.getMode p) := by
  simp [Statement, rowFixed, headerNumber, encode]
theorem setMode (p : Byte) (mode : Byte) : Statement (.setMode p mode) := by
  simp [Statement, rowFixed, headerNumber, encode]
theorem ensureConfig (p : Byte) : Statement (.ensureConfig p) := by
  simp [Statement, rowFixed, headerNumber, encode]
theorem restoreMode (p : Byte) (mode : Byte) : Statement (.restoreMode p mode) := by
  simp [Statement, rowFixed, headerNumber, encode]
theorem settingsWrite (p : Byte) (page : Byte) (addr : Byte) (len : Byte) (payload : Nat) : Statement (.settingsWrite p page addr len payload) := by
  simp [Statement, rowFixed, headerNumber, encode]
theorem irqTxe (p : Byte) : Statement (.irqTxe p) := by
  simp [Statement, rowFixed, headerNumber, encode]
theorem irqTc (p : Byte) : Statement (.irqTc p) := by
  simp [Statement, rowFixed, headerNumber, encode]
theorem irqRxne (p : Byte) : Statement (.irqRxne p) := by
  simp [Statement, rowFixed, headerNumber, encode]
theorem tick : Statement .tick := by
  simp [Statement, rowFixed, headerNumber, encode]
theorem rd (reg : Byte) (len : Byte) : Statement (.rd reg len) := by
  have h1 := reg.isLt
  have h2 := len.isLt
  simp [Statement, rowFixed, headerNumber, encode, rdFrame, sync, opRead]
  omega
theorem wr (reg : Byte) (len : Byte) (payload : List Byte) : Statement (.wr reg len payload) := by
  have h1 := reg.isLt
  have h2 := len.isLt
  simp [Statement, rowFixed, headerNumber, encode, wrFrame, sync, opWrite]
  omega
theorem rsp (status : Byte) (length : Byte) : Statement (.rsp status length) := by
  simp [Statement, rowFixed, encode, Instr.wf]
theorem rspErr (code : Byte) : Statement (.rspErr code) := by
  have h1 := code.isLt
  simp [Statement, rowFixed, headerNumber, encode, sentinel]
  omega

end FixedBits

end Sys2Proof.Laws
end

