-- ==== Sys2Proof/Tests/Slice0.lean ====
section
/-! SUPPORT. Tests: ill-formed terms, one written-out word for each constructor, one-step vectors of
spec/95_test_vectors.md (named beside each), and for each statement with hypotheses a state that meets them. -/

namespace Sys2Proof.Tests

open Sys2Proof.Machine

/-- The values of State.reset meet R5. -/
theorem test_vectors_legal : Params.vectors.legal := by decide

/-! ### Ill-formed terms -/

theorem test_wf_timeout_baud : (Instr.computeTimeout (2 ^ 32) 8 0 2 3 ⟨5, 0⟩).wf 2 = false := by decide
theorem test_wf_timeout_word : (Instr.computeTimeout 115200 256 0 2 3 ⟨5, 0⟩).wf 2 = false := by decide
theorem test_wf_timeout_parity : (Instr.computeTimeout 115200 8 256 2 3 ⟨5, 0⟩).wf 2 = false := by decide
theorem test_wf_timeout_stop : (Instr.computeTimeout 115200 8 0 256 3 ⟨5, 0⟩).wf 2 = false := by decide
theorem test_wf_timeout_length : (Instr.computeTimeout 115200 8 0 2 (2 ^ 32) ⟨5, 0⟩).wf 2 = false := by decide
theorem test_wf_timeout_num : (Instr.computeTimeout 115200 8 0 2 3 ⟨2 ^ 32, 0⟩).wf 2 = false := by decide
theorem test_wf_timeout_den : (Instr.computeTimeout 115200 8 0 2 3 ⟨5, 2 ^ 32⟩).wf 2 = false := by decide
theorem test_wf_beginTx_src : (Instr.beginTx 0 0x10000 1).wf 2 = false := by decide
theorem test_wf_beginRx_dst : (Instr.beginRx 0 0x10000 1).wf 2 = false := by decide
theorem test_wf_readReg_out : (Instr.readReg 0 0x3D 1 0x10000).wf 2 = false := by decide
theorem test_wf_writeReg_payload : (Instr.writeReg 0 0x3B 1 0x10000).wf 2 = false := by decide
theorem test_wf_settingsWrite_payload : (Instr.settingsWrite 0 0 0x3B 1 0x10000).wf 2 = false := by decide
theorem test_wf_rd_len : (Instr.rd 0x3D 0).wf 2 = false := by decide
theorem test_wf_wr_len : (Instr.wr 0x3D 0 []).wf 2 = false := by decide
theorem test_wf_wr_payload : (Instr.wr 0x3D 2 [0x0C]).wf 2 = false := by decide
theorem test_wf_rsp_sentinel : (Instr.rsp 0xEE 0x03).wf 2 = false := by decide

/-! ### One written-out word for each constructor (R101 to R104, R113, R114; record packing: log 1) -/

theorem test_decode_portInit : decodeHost 8 [0x00, 0x02] = .ok (.portInit 2, []) := by decide
theorem test_decode_beginTx :
    decodeHost 8 [0x01, 0x00, 0, 0, 0, 0, 0, 0, 0x10, 0x02, 0x01, 0x04] = .ok (.beginTx 0 0x1002 0x0104, []) := by decide
theorem test_decode_beginRx :
    decodeHost 2 [0x02, 0x00, 0x20, 0x01, 0x01, 0x03] = .ok (.beginRx 0 0x2001 0x0103, []) := by decide
theorem test_decode_abortRx : decodeHost 8 [0x03, 0x01, 0x09] = .ok (.abortRx 1, [0x09]) := by decide
theorem test_decode_txStatus : decodeHost 8 [0x04, 0x01] = .ok (.txStatus 1, []) := by decide
theorem test_decode_rxStatus : decodeHost 8 [0x05, 0x01] = .ok (.rxStatus 1, []) := by decide
theorem test_decode_computeTimeout :
    decodeHost 8 [0x06, 0x00, 0x01, 0xC2, 0x00, 0x09, 0x01, 0x04, 0, 0, 0, 3, 0, 0, 0, 5, 0, 0, 0, 1] =
      .ok (.computeTimeout 115200 9 1 4 3 ⟨5, 1⟩, []) := by decide
theorem test_decode_delay : decodeHost 8 [0x07, 0x01, 0x02] = .ok (.delay 0x0102, []) := by decide
theorem test_decode_readReg :
    decodeHost 8 [0x10, 0x00, 0x3D, 0x02, 0, 0, 0, 0, 0, 0, 0x20, 0x01] = .ok (.readReg 0 0x3D 2 0x2001, []) := by decide
theorem test_decode_writeReg :
    decodeHost 8 [0x11, 0x00, 0x3B, 0x02, 0, 0, 0, 0, 0, 0, 0x21, 0x01] = .ok (.writeReg 0 0x3B 2 0x2101, []) := by decide
theorem test_decode_selectPage : decodeHost 8 [0x20, 0x00, 0x01] = .ok (.selectPage 0 1, []) := by decide
theorem test_decode_getMode : decodeHost 8 [0x21, 0x01] = .ok (.getMode 1, []) := by decide
theorem test_decode_setMode : decodeHost 8 [0x22, 0x00, 0x0C] = .ok (.setMode 0 0x0C, []) := by decide
theorem test_decode_ensureConfig : decodeHost 8 [0x23, 0x01] = .ok (.ensureConfig 1, []) := by decide
theorem test_decode_restoreMode : decodeHost 8 [0x24, 0x00, 0x0C] = .ok (.restoreMode 0 0x0C, []) := by decide
theorem test_decode_settingsWrite :
    decodeHost 8 [0x25, 0x00, 0x01, 0x3B, 0x02, 0, 0, 0, 0, 0, 0, 0x21, 0x01] =
      .ok (.settingsWrite 0 1 0x3B 2 0x2101, []) := by decide
theorem test_decode_irqTxe : decodeEvent [0x80, 0x01] = .ok (.irqTxe 1, []) := by decide
theorem test_decode_irqTc : decodeEvent [0x81, 0x01] = .ok (.irqTc 1, []) := by decide
theorem test_decode_irqRxne : decodeEvent [0x82, 0x01] = .ok (.irqRxne 1, []) := by decide
theorem test_decode_tick : decodeEvent [0x83] = .ok (.tick, []) := by decide
/-- E1: `READ_REG 0, 0x08, 6, m`. -/
theorem test_decode_rd : decodeFrame [0xAA, 0x01, 0x08, 0x06] = .ok (.rd 0x08 0x06, []) := by decide
/-- E1: `WRITE_REG 0, 0x55, 2, m` with `12 34` at `m`. -/
theorem test_decode_wr : decodeFrame [0xAA, 0x00, 0x55, 0x02, 0x12, 0x34] = .ok (.wr 0x55 0x02 [0x12, 0x34], []) := by
  decide
/-- E2: `ED 02`. -/
theorem test_decode_rsp : decodeResponse [0xED, 0x02] = .ok (.rsp 0xED 0x02, []) := by decide
/-- E2: `EE FF`. -/
theorem test_decode_rspErr : decodeResponse [0xEE, 0xFF] = .ok (.rspErr 0xFF, []) := by decide
/-- The table's word of `READ_REG 0, 0x3D, 1, m` (E1). -/
theorem test_decodeTableWord_rd : decodeTableWord 32 0xAA013D01 = some (.rd 0x3D 0x01) := by decide +kernel
theorem test_decodeTableWord_irqTc : decodeTableWord 8 0x81 = some (.irqTc 0) := by decide

/-! ### States for the tests -/

/-- The state an outcome goes on with. -/
def after (r : Result) : Option State :=
  match r with
  | .next s => some s
  | _ => none

/-- The refusal an outcome is. -/
def refusal (r : Result) : Option Refusal :=
  match r with
  | .refused e => some e
  | _ => none

/-- The fault an outcome is. -/
def fault (r : Result) : Option Fault :=
  match r with
  | .fault e => some e
  | _ => none

/-- Port 0 after reset. -/
def p0 : Port := Port.reset Params.vectors LineConfig.vectors

/-- The reset state with another port 0. -/
def withPort (port : Port) : State := { State.reset with ports := [port] }

/-- The reset state with the bytes of the vectors' transmit source. -/
def loaded : State :=
  { State.reset with dmem := [(0x1000, 0xAA), (0x1001, 0x01), (0x1002, 0x3D), (0x1003, 0x01)] }

/-- A transmit of `n` handed-over bytes out of `AA 01 3D 01`, all enables on their first setting. -/
def sendingPort (cur : Half) : Port :=
  let port := p0.startTx [0xAA, 0x01, 0x3D, 0x01]
  { port with tx := { port.tx with cur := cur } }

/-- A receive of `n` bytes into `dest` with a byte waiting in the peripheral. -/
def receivingPort (dest : Dest) (n cur : Half) (b : Byte) (e : LineErrors) : Port :=
  let port := p0.startRx dest n
  { port with rx := { port.rx with cur := cur }, periph := { port.periph with rdr := b, rxne := true, errors := e } }

/-- FG in an FRP operation of the host. -/
def inFrp (phase : FrpPhase) (kind : FrpKind) (buf : FrpBuf) (port : Port) : State :=
  { withPort port with fg := [.frp], frp := { Frp.reset with phase := phase, kind := kind, addr := 0x3D, len := 1, buf := buf } }

/-- FG in a DCM pass with the callers given. -/
def inPass (phase : DcmPhase) (k : Pass) (callers : List Frame) : State :=
  { State.reset with fg := .dcm k :: callers, dcm := { Dcm.reset with phase := phase } }

/-- FG in the WRITE_REG of a SETTINGS_WRITE. -/
def inSettingsWrite (st : Status) : State :=
  { inFrp (.done st) .write (.dmem 0x2100) p0 with fg := [.frp, .settings .writing 0 0x3B 1 0x2100] }

/-! ### One step of each instruction -/

/-- T16. -/
theorem test_portInit : (after (exec (.portInit 0) State.reset)).map (·.ret) = some (some ⟨.success, .none⟩) := by decide
theorem test_portInit_second : refusal (exec (.portInit 0) (withPort { p0 with initDone := true })) = some .secondPortInit := by
  decide
/-- R146: not after a transfer was started. -/
theorem test_portInit_late : refusal (exec (.portInit 0) (withPort (sendingPort 0))) = some .latePortInit := by decide
/-- T1. -/
theorem test_beginTx : (after (exec (.beginTx 0 0x1000 4) loaded)).map (fun s => s.ports.map (·.tx)) =
    some [⟨[0xAA, 0x01, 0x3D, 0x01] ++ List.replicate 12 0, 4, 0, .busy, true, false⟩] := by decide
/-- T8: the parameter check precedes the Busy check. -/
theorem test_beginTx_order : (after (exec (.beginTx 0 0x1000 0) (withPort (sendingPort 0)))).map (·.ret) =
    some (some ⟨.invalidParam, .none⟩) := by decide
/-- T9. -/
theorem test_beginRx : (after (exec (.beginRx 0 0x2000 3) State.reset)).map (fun s => s.ports.map (·.rx)) =
    some [⟨⟨.dmem, 0x2000⟩, 3, 0, .busy, true⟩] := by decide
/-- T9, second call. -/
theorem test_beginRx_busy : (after (exec (.beginRx 0 0x3000 5) (withPort (receivingPort ⟨.dmem, 0x2000⟩ 3 0 0 .clear)))).map
    (fun s => (s.ret, s.ports.map (·.rx.dest))) = some (some ⟨.error, .none⟩, [⟨.dmem, 0x2000⟩]) := by decide
/-- T11. -/
theorem test_abortRx : (after (exec (.abortRx 0) (withPort (receivingPort ⟨.dmem, 0x2000⟩ 3 1 0 .clear)))).map
    (fun s => s.ports.map (·.rx)) = some [⟨⟨.dmem, 0⟩, 0, 0, .idle, false⟩] := by decide
/-- T13. -/
theorem test_txStatus : (after (exec (.txStatus 0) (withPort (sendingPort 0)))).map (·.ret) =
    some (some ⟨.success, .transfer .busy⟩) := by decide
/-- T13. -/
theorem test_rxStatus : (after (exec (.rxStatus 0) (withPort (sendingPort 0)))).map (·.ret) =
    some (some ⟨.success, .transfer .idle⟩) := by decide
/-- TC7. -/
theorem test_computeTimeout : (after (exec (.computeTimeout 9600 9 1 4 3 ⟨5, 0⟩) State.reset)).map (·.ret) =
    some (some ⟨.success, .millis (75 / 4)⟩) := by decide +kernel
/-- TC1 and TC12: 2 ticks, 0 ticks. -/
theorem test_responseTicks : responseTicks LineConfig.vectors 3 = some 2 ∧ responseTicks LineConfig.vectors 0 = some 0 := by
  decide +kernel
/-- L3. -/
theorem test_delay_zero : (after (exec (.delay 0) State.reset)).map (·.ret) = some (some ⟨.success, .none⟩) := by decide
/-- L2: across the wrap. -/
theorem test_delay_wrap :
    (after (fgTurn { State.reset with fg := [.delay 10 0xFFFFFFFA], tick := 4 })).map (·.ret) =
      some (some ⟨.success, .none⟩) ∧
    after (fgTurn { State.reset with fg := [.delay 10 0xFFFFFFFA], tick := 3 }) =
      some { State.reset with fg := [.delay 10 0xFFFFFFFA], tick := 3 } := by decide
/-- RR1, its issue. -/
theorem test_readReg : (after (exec (.readReg 0 0x3D 1 0x2000) State.reset)).map (fun s => (s.frp.phase, s.fg)) =
    some (.compose, [.frp]) := by decide
/-- WR8: `len = 0`. -/
theorem test_writeReg_len : (after (exec (.writeReg 0 0x3B 0 0x2100) State.reset)).map (·.frp.phase) =
    some (.done .invalidParam) := by decide
/-- DC2. -/
theorem test_selectPage_bad : (after (exec (.selectPage 0 2) State.reset)).map (·.dcm.phase) =
    some (.done .invalidParam) := by decide
/-- DC3, its return. -/
theorem test_getMode : (after (fgTurn { inPass (.done .success) .getMode [] with dcm := ⟨.done .success, 0, 0, 0x0C, 0⟩ })).map
    (·.ret) = some (some ⟨.success, .mode 0x0C⟩) := by decide
/-- DC5. -/
theorem test_setMode_bad : (after (exec (.setMode 0 0x0D) State.reset)).map (·.dcm.phase) =
    some (.done .invalidParam) := by decide
/-- DC4a, its settle delay. -/
theorem test_setMode_settle : (after (fgTurn { inPass .settle .setMode [] with dcm := ⟨.settle, 0, 0, 0x0C, 0⟩ })).map (·.fg) =
    some [.delay 19 0, .dcm .setMode] := by decide
/-- DC6b. -/
theorem test_ensureConfig : (after (fgTurn (inPass (.done .success) .getMode [.ensure .reading]))).map (·.ret) =
    some (some ⟨.success, .mode 0x00⟩) := by decide
/-- DC7c. -/
theorem test_restoreMode_bad : (after (exec (.restoreMode 0 0x5A) State.reset)).map (·.dcm.phase) =
    some (.done .invalidParam) := by decide
/-- DC9: the failed write ends SETTINGS_WRITE. -/
theorem test_settingsWrite_failed : (after (fgTurn (inSettingsWrite .error))).map (fun s => (s.fg, s.ret)) =
    some ([], some ⟨.error, .none⟩) := by decide
/-- I1, its fourth IRQ_TXE. -/
theorem test_irqTxe_last : (after (exec (.irqTxe 0) (withPort (sendingPort 3)))).map (fun s => s.ports.map fun p =>
    (p.tx.cur, p.tx.txeie, p.tx.tcie, p.periph.tdr)) = some [(4, false, true, some 0x01)] := by decide
/-- I11. -/
theorem test_irqTc_disabled : (after (exec (.irqTc 0) (withPort { p0 with periph := { p0.periph with tc := true } }))).map
    (fun s => s.ports.map (·.periph.tc)) = some [true] := by decide
/-- I3, its third byte. -/
theorem test_irqRxne_last : (after (exec (.irqRxne 0) (withPort (receivingPort ⟨.dmem, 0x2000⟩ 3 2 0x0C .clear)))).map
    (fun s => (s.dmem, s.ports.map (·.rx.status))) = some ([(0x2002, 0x0C)], [.idle]) := by decide
/-- I4, its second byte. -/
theorem test_irqRxne_error : (after (exec (.irqRxne 0)
    (withPort (receivingPort ⟨.dmem, 0x2000⟩ 3 1 0x01 ⟨true, false, false, false⟩)))).map
    (fun s => (s.dmem, s.ports.map (·.rx))) = some ([], [⟨⟨.dmem, 0x2000⟩, 3, 1, .idle, false⟩]) := by decide
/-- R210's example. -/
theorem test_tick : (after (exec .tick { State.reset with tick := 0xFFFFFFFF })).map (·.tick) = some 0 := by decide
/-- DC3: `RD 3D` answered `BB 01 0C`. -/
theorem test_rd : (after (exec (.rd 0x3D 1)
    (withPort { p0 with dev := { p0.dev with regs := [(0x3D, 0x0C)] } }))).map (fun s => s.ports.map (·.dev.out)) =
    some [[0xBB, 0x01, 0x0C]] := by decide
/-- DC4a: `WR 3D 00` from mode 0C starts the device's settle count of 19. -/
theorem test_wr : (after (exec (.wr 0x3D 1 [0x00])
    (withPort { p0 with dev := { p0.dev with regs := [(0x3D, 0x0C)] } }))).map
    (fun s => s.ports.map fun p => (p.dev.regs, p.dev.settle, p.dev.out)) = some [([], 19, [0xEE, 0x01])] := by decide
/-- E2: `01 EE` is success. -/
theorem test_rsp : (after (exec (.rsp 0x01 0xEE) (inFrp .evaluate .read (.dmem 0x2000) p0))).map (·.frp.phase) =
    some (.done .success) := by decide
/-- E2, WR1: `EE 01` is success for a write. -/
theorem test_rspErr_write : (after (exec (.rspErr 0x01) (inFrp .evaluate .write (.dmem 0x2100) p0))).map (·.frp.phase) =
    some (.done .success) := by decide
/-- E2: `EE 01` is an error for a read. -/
theorem test_rspErr_read : (after (exec (.rspErr 0x01) (inFrp .evaluate .read (.dmem 0x2000) p0))).map
    (fun s => (s.frp.phase, s.frp.attempt)) = some (.compose, 1) := by decide

/-- U25: the host stores into its READ_REG's buffer while the receive is Busy. -/
theorem test_hostStore_busy : (after (runMove (.hostStore 0x2002 0x5A)
    (inFrp .awaitingResponse .read (.dmem 0x2000) (receivingPort ⟨.dmem, 0x2000⟩ 3 0 0 .clear)))).map (·.dmem) =
    some [(0x2002, 0x5A)] := by decide

/-! ### A fetched word runs as the first instruction after reset -/

theorem test_step_fetches_getMode : (after (step (State.reset.withFetchWord 8 0x21))).map (·.fg) = some [.dcm .getMode] := by
  decide
theorem test_step_fetches_rd : (after (step (State.reset.withFetchWord 32 0xAA010701))).map (fun s => s.ports.map (·.dev.out)) =
    some [[0xBB, 0x01, 0x00]] := by decide +kernel
theorem test_step_fetches_rspErr : (after (step (State.reset.withFetchWord 16 0xEE03))).map (·.frp.phase) = some .compose := by
  decide

/-! ### Witnesses: states and operands that meet the hypotheses of the statements, clause by clause -/

theorem witness_DecodeEncode :
    (Instr.computeTimeout (2 ^ 32 - 1) 255 255 255 (2 ^ 32 - 1) ⟨2 ^ 32 - 1, 2 ^ 32 - 1⟩).wf 2 = true ∧
    (Instr.wr 0xFF 1 [0xFF]).wf 2 = true ∧ (Instr.rd 0xFF 0xFF).wf 2 = true ∧ (Instr.rsp 0xEF 0x07).wf 2 = true := by decide
theorem witness_EncodeDecode :
    decodeOn 2 .frame [0xAA, 0x01, 0x3D, 0x00, 0x05] = .ok (.rd 0x3D 0x00, [0x05]) ∧
    decodeOn 2 .host [0x03, 0x00] = .ok (.abortRx 0, []) := by decide
theorem witness_UnknownSelectorsRefused :
    State.reset.fg = [] ∧ ({ State.reset with commands := [0x08] } : State).commands = [0x08] ∧
    (0x08 : Byte) ∉ ([0x00, 0x01, 0x02, 0x03, 0x04, 0x05, 0x06, 0x07, 0x10, 0x11, 0x20, 0x21, 0x22, 0x23, 0x24, 0x25] :
      List Byte) ∧ (0x84 : Byte) ∉ ([0x80, 0x81, 0x82, 0x83] : List Byte) := by decide
theorem witness_StepRunsHostRecord :
    (Instr.getMode 0).wf 2 = true ∧ (Instr.getMode 0).channel = .host ∧ State.reset.fg = [] ∧ State.reset.moves = [] ∧
    ({ State.reset with commands := [0x21, 0x00, 0x21] } : State).commands = encode 2 (.getMode 0) ++ [0x21] ∧
    ({ State.reset with moves := [.fg] } : State).moves = .fg :: [] := by decide
theorem witness_StepRunsEvent :
    (Instr.irqTc 0).wf 2 = true ∧ (Instr.irqTc 0).channel = .event ∧
    ({ State.reset with moves := [.event [0x81, 0x00], .fg] } : State).moves = .event (encode 2 (.irqTc 0) ++ []) :: [.fg] := by
  decide

/-- Port 0 with the last byte of `AA 01 3D 01` on the line. -/
def framedPort : Port := { p0 with lineOut := [0x01, 0xAA], dev := { p0.dev with cmd := [0xAA, 0x01, 0x3D] } }

theorem witness_StepRunsFrame :
    (Instr.rd 0x3D 1).wf 2 = true ∧ (Instr.rd 0x3D 1).channel = .frame ∧ (withPort framedPort).ports[0]? = some framedPort ∧
    ({ withPort framedPort with moves := [.devTake 0 none] } : State).moves = .devTake 0 none :: [] ∧
    framedPort.dev.settle = 0 ∧ framedPort.lineOut = 0x01 :: [0xAA] ∧
    framedPort.dev.cmd ++ [0x01] = encode 2 (.rd 0x3D 1) := by decide

/-- A WRITE_REG in Evaluate with `EE 03` in WRESP. -/
def evaluating : State := { inFrp .evaluate .write (.dmem 0x2100) p0 with scr := #v[0xEE, 0x03, 0, 0, 0] }

theorem witness_StepRunsResponseHeader :
    (Instr.rspErr 0x03).wf 2 = true ∧ (Instr.rspErr 0x03).channel = .response ∧ evaluating.fg = .frp :: [] ∧
    evaluating.frp.phase = .evaluate ∧ evaluating.moves = [] ∧
    responseHeader evaluating = .ok (encode 2 (.rspErr 0x03)) ∧
    ({ evaluating with moves := [.fg] } : State).moves = .fg :: [] := by decide
theorem witness_PortInitResets :
    State.reset.fg = [] ∧ State.reset.ports[(0 : Byte).toNat]? = some p0 ∧ p0.initDone = false ∧
    p0.txBegun = false ∧ p0.rxBegun = false ∧
    (withPort { p0 with initDone := true }).ports[(0 : Byte).toNat]? = some { p0 with initDone := true } ∧
    (withPort (sendingPort 0)).ports[(0 : Byte).toNat]? = some (sendingPort 0) ∧ (sendingPort 0).txBegun = true ∧
    (sendingPort 0).initDone = false := by decide
theorem witness_BeginTxStarts :
    loaded.fg = [] ∧ loaded.ports[(0 : Byte).toNat]? = some p0 ∧ p0.tx.status = .idle ∧ (0xFFF0 : Nat) ≠ 0 ∧
    (16 : Half) ≠ 0 ∧ (16 : Half).toNat ≤ loaded.params.txCap ∧
    (0xFFF0 : Nat) + (16 : Half).toNat ≤ 2 ^ loaded.params.addrW ∧
    2 ^ loaded.params.addrW < (0xFFF1 : Nat) + (16 : Half).toNat ∧ loaded.params.txCap < (17 : Half).toNat ∧
    (sendingPort 0).tx.status = .busy ∧ (withPort (sendingPort 0)).ports[(0 : Byte).toNat]? = some (sendingPort 0) ∧
    (16 : Half).toNat ≤ (withPort (sendingPort 0)).params.txCap := by decide
theorem witness_BeginRxStarts :
    State.reset.fg = [] ∧ State.reset.ports[(0 : Byte).toNat]? = some p0 ∧ p0.rx.status = .idle ∧
    (0xFFFF : Nat) ≠ 0 ∧ (0xFFFF : Half) ≠ 0 ∧
    (withPort (receivingPort ⟨.dmem, 0x2000⟩ 3 0 0 .clear)).ports[(0 : Byte).toNat]? =
      some (receivingPort ⟨.dmem, 0x2000⟩ 3 0 0 .clear) ∧
    (receivingPort ⟨.dmem, 0x2000⟩ 3 0 0 .clear).rx.status = .busy ∧ (1 : Nat) ≠ 0 ∧ (1 : Half) ≠ 0 := by decide
theorem witness_AbortRxStops_and_StatusesRead :
    State.reset.fg = [] ∧ State.reset.ports[(0 : Byte).toNat]? = some p0 ∧
    State.reset.ports.length ≤ (1 : Byte).toNat := by decide
theorem witness_BadPortRejected : State.reset.fg = [] ∧ State.reset.ports.length ≤ (1 : Byte).toNat := by decide
theorem witness_ComputeTimeoutValue :
    State.reset.fg = [] ∧ (1 : Nat) ≠ 0 ∧ (9 = 8 ∨ (9 : Nat) = 9) ∧ (1 : Nat) ≤ 1 ∧ ((4 : Nat) = 1 ∨ 4 = 2 ∨ (4 : Nat) = 4) ∧
    ((10 : Nat) ≠ 8 ∧ (10 : Nat) ≠ 9) ∧ (1 : Nat) < 2 ∧ ((3 : Nat) ≠ 1 ∧ (3 : Nat) ≠ 2 ∧ (3 : Nat) ≠ 4) := by decide

/-- FG in `DELAY 10`, entered at tick `0xFFFFFFFA`. -/
def delaying (tick : Tick) : State := { State.reset with fg := [.delay 10 0xFFFFFFFA], tick := tick }

theorem witness_DelayWaits :
    State.reset.fg = [] ∧ (delaying 3).fg = [.delay 10 0xFFFFFFFA] ∧ 10 < 2 ^ 32 ∧
    (delaying 3).tick = 0xFFFFFFFA + BitVec.ofNat 32 9 ∧ 9 < (10 : Half).toNat ∧
    (delaying 4).tick = 0xFFFFFFFA + BitVec.ofNat 32 10 ∧ (10 : Half).toNat ≤ 10 := by decide
theorem witness_IrqTxeHandsOver :
    (withPort (sendingPort 3)).ports[(0 : Byte).toNat]? = some (sendingPort 3) ∧ (sendingPort 3).tx.txeie = true ∧
    (sendingPort 3).periph.txe = true ∧ (sendingPort 3).tx.buf[(sendingPort 3).tx.cur.toNat]? = some 0x01 := by decide

/-- Port 0 with every byte handed over and the completion flag up. -/
def completingPort : Port :=
  let port := sendingPort 4
  { port with tx := { port.tx with txeie := false, tcie := true }, periph := { port.periph with tc := true } }

theorem witness_IrqTcEnds :
    (withPort completingPort).ports[(0 : Byte).toNat]? = some completingPort ∧ completingPort.tx.tcie = true ∧
    completingPort.periph.tc = true := by decide

/-- The last byte of a receive at the last address of DMEM, and one past it; the last byte of a receive into DCMBUF. -/
theorem witness_IrqRxneStores :
    let inside := receivingPort ⟨.dmem, 0xFFFE⟩ 2 1 0x7E .clear
    let outside := receivingPort ⟨.dmem, 0xFFFE⟩ 3 2 0x7E .clear
    let scratch := receivingPort ⟨.scr, 2⟩ 3 2 0x7E .clear
    (withPort inside).ports[(0 : Byte).toNat]? = some inside ∧ inside.rx.rxneie = true ∧ inside.periph.rxne = true ∧
    inside.periph.errors = ⟨false, false, false, false⟩ ∧ inside.rx.dest.space = .dmem ∧
    inside.rx.dest.addr + inside.rx.cur.toNat < 2 ^ (withPort inside).params.addrW ∧
    (withPort outside).ports[(0 : Byte).toNat]? = some outside ∧
    2 ^ (withPort outside).params.addrW ≤ outside.rx.dest.addr + outside.rx.cur.toNat ∧
    (withPort scratch).ports[(0 : Byte).toNat]? = some scratch ∧ scratch.rx.dest.space = .scr ∧
    scratch.rx.dest.addr + scratch.rx.cur.toNat < 5 := by decide
theorem witness_IrqRxneDrops :
    let port := receivingPort ⟨.dmem, 0x2000⟩ 3 0 0x37 ⟨false, false, true, false⟩
    (withPort port).ports[(0 : Byte).toNat]? = some port ∧ port.rx.rxneie = true ∧ port.periph.rxne = true ∧
    port.periph.errors ≠ ⟨false, false, false, false⟩ := by decide
theorem witness_NotPendingRunsNothing :
    (∀ port, State.reset.ports[(1 : Byte).toNat]? = some port → (port.tx.txeie && port.periph.txe) = false) ∧
    (p0.tx.txeie && p0.periph.txe) = false ∧ (p0.tx.tcie && p0.periph.tc) = false ∧
    (p0.rx.rxneie && p0.periph.rxne) = false ∧ State.reset.ports[(0 : Byte).toNat]? = some p0 :=
  ⟨(by intro port h; cases h), (by decide), (by decide), (by decide), (by decide)⟩
theorem witness_SerialArmsFrame :
    (after (exec (.irqRxne 0) (withPort (receivingPort ⟨.dmem, 0x2000⟩ 3 0 0x7E .clear)))).isSome = true ∧
    (after (exec (.irqTxe 0) (withPort (sendingPort 0)))).isSome = true ∧
    (after (exec (.irqTc 0) (withPort completingPort))).isSome = true := by decide

/-- Port 0 with a transmit and a receive in flight, both arms pending. -/
def bothPort : Port :=
  { receivingPort ⟨.dmem, 0x2000⟩ 3 0 0x7E .clear with tx := (sendingPort 0).tx, txBegun := true }

theorem witness_ArmOrderUnobservable :
    ((after (exec (.irqRxne 0) (withPort bothPort))).bind fun t => after (exec (.irqTxe 0) t)).isSome = true := by decide
theorem witness_RegisterAccessesIssue :
    State.reset.fg = [] ∧ (0 : Byte).toNat < State.reset.ports.length ∧ (1 : Nat) ≠ 0 ∧ (0xFF : Byte) ≠ 0 := by decide
theorem witness_IllegalOperandsRejected :
    State.reset.fg = [] ∧ (2 : Byte) ≠ 0 ∧ (2 : Byte) ≠ 1 ∧ (0x0D : Byte) ∉ State.reset.params.modeSet := by decide
theorem witness_PassesIssue_and_SequencesIssue :
    State.reset.fg = [] ∧ (0 : Byte).toNat < State.reset.ports.length ∧ (1 : Byte) = 1 ∧
    (0x0C : Byte) ∈ State.reset.params.modeSet ∧ (0x01 : Byte) ∈ State.reset.params.modeSet := by decide

/-- A WRITE_REG of `n` bytes at Compose: 12 bytes of payload fill TX_CAP, 13 exceed it. -/
def composing (n : Byte) (buf : FrpBuf) (port : Port) : State :=
  let s := inFrp .compose .write buf port
  { s with frp := { s.frp with len := n } }

theorem witness_FrpComposes :
    (composing 12 (.dmem 0xFFF4) p0).fg = .frp :: [] ∧ (composing 12 (.dmem 0xFFF4) p0).frp.phase = .compose ∧
    (composing 12 (.dmem 0xFFF4) p0).ports[(0 : Byte).toNat]? = some p0 ∧
    (0xFFF4 : Nat) + (12 : Byte).toNat ≤ 2 ^ State.reset.params.addrW ∧ p0.tx.status = .idle ∧
    4 + (12 : Byte).toNat ≤ State.reset.params.txCap ∧ State.reset.params.txCap < 4 + (13 : Byte).toNat ∧
    (composing 13 (.dmem 0x2100) p0).ports[(0 : Byte).toNat]? = some p0 ∧
    (composing 1 .internal (sendingPort 0)).ports[(0 : Byte).toNat]? = some (sendingPort 0) ∧
    (composing 1 .internal (sendingPort 0)).frp.buf = .internal ∧ (sendingPort 0).tx.status = .busy ∧
    (inFrp .compose .read (.dmem 0x2000) p0).frp.kind = .read ∧
    (composing 12 (.dmem 0xFFF5) p0).frp.buf = .dmem 0xFFF5 ∧
    2 ^ State.reset.params.addrW < (0xFFF5 : Nat) + (composing 12 (.dmem 0xFFF5) p0).frp.len.toNat := by decide
theorem witness_FrpWaitsAndReturns :
    (inFrp .transmitting .read (.dmem 0x2000) (sendingPort 0)).ports[(0 : Byte).toNat]? = some (sendingPort 0) ∧
    (sendingPort 0).tx.status = .busy ∧ (inFrp .transmitting .read (.dmem 0x2000) p0).ports[(0 : Byte).toNat]? = some p0 ∧
    (inFrp .transmitting .read (.dmem 0x2000) p0).fg = .frp :: [] ∧ p0.tx.status = .idle ∧
    (inFrp (.done .error) .read (.dmem 0x2000) p0).fg = [.frp] ∧
    (inFrp (.done .error) .read (.dmem 0x2000) p0).frp.phase = .done .error := by decide
theorem witness_FrpArmsReceive :
    (inFrp .armReceive .read (.dmem 1) p0).fg = .frp :: [] ∧
    (inFrp .armReceive .read (.dmem 1) p0).ports[(0 : Byte).toNat]? = some p0 ∧ (1 : Nat) ≠ 0 ∧ p0.rx.status = .idle ∧
    (inFrp .armReceive .read .internal p0).frp.buf = .internal ∧ (inFrp .armReceive .write (.dmem 1) p0).frp.kind = .write ∧
    (receivingPort ⟨.dmem, 0x3000⟩ 4 0 0 .clear).rx.status = .busy := by decide

/-- A READ_REG of one byte in `phase`, `k` ticks after its sample, which is just below the wrap. -/
def timed (phase : FrpPhase) (attempt : BitVec 2) (k : Nat) (port : Port) : State :=
  let s := inFrp phase .read (.dmem 0x2000) port
  { s with tick := 0xFFFFFFFF + BitVec.ofNat 32 k, frp := { s.frp with attempt := attempt, t0 := 0xFFFFFFFF, tmo := 2 } }

theorem witness_FrpDelaysStart :
    (timed .startupDelay 0 9 p0).fg = .frp :: [] ∧ (timed .startupDelay 0 9 p0).ports[(0 : Byte).toNat]? = some p0 ∧
    (timed .startupDelay 0 9 p0).tick = (timed .startupDelay 0 9 p0).frp.t0 + BitVec.ofNat 32 9 ∧
    9 < (if (timed .startupDelay 0 9 p0).frp.attempt = 0 then 10 else 15) ∧
    (if (timed .startupDelay 0 10 p0).frp.attempt = 0 then 10 else 15) ≤ 10 ∧
    14 < (if (timed .startupDelay 1 14 p0).frp.attempt = 0 then 10 else 15) ∧
    (if (timed .startupDelay 1 15 p0).frp.attempt = 0 then 10 else 15) ≤ 15 ∧
    legalLine p0.line.baudRate p0.line.wordLength p0.line.parityEnabled p0.line.stopHalves = true ∧
    legalLine 0 8 0 2 = false ∧ (timed .startupDelay 0 9 p0).frp.kind = .read := by decide
theorem witness_FrpAwaitsResponse :
    let busy := receivingPort ⟨.dmem, 0x2000⟩ 3 0 0 .clear
    (timed .awaitingResponse 0 1 busy).fg = .frp :: [] ∧
    (timed .awaitingResponse 0 1 busy).ports[(0 : Byte).toNat]? = some busy ∧ busy.rx.status = .busy ∧
    (timed .awaitingResponse 0 1 busy).tick = (timed .awaitingResponse 0 1 busy).frp.t0 + BitVec.ofNat 32 1 ∧
    1 < (timed .awaitingResponse 0 1 busy).frp.tmo ∧ (timed .awaitingResponse 0 2 busy).frp.tmo ≤ 2 ∧
    (timed .awaitingResponse 0 2 p0).ports[(0 : Byte).toNat]? = some p0 ∧ p0.rx.status = .idle := by decide
theorem witness_RspSucceeds_and_RspErrRetries :
    (0xEF : Byte) ≠ 0xEE ∧ evaluating.frp.phase = .evaluate ∧ evaluating.frp.kind = .write ∧ (0x03 : Byte) ≠ 0x01 ∧
    (timed .evaluate 1 0 p0).frp.attempt.toNat < 2 ∧ 2 ≤ (timed .evaluate 2 0 p0).frp.attempt.toNat ∧
    (timed .evaluate 2 0 p0).frp.kind = .read ∧ State.reset.frp.phase ≠ .evaluate := by decide
theorem witness_EvaluateClassifies :
    evaluating.fg = .frp :: [] ∧ evaluating.frp.phase = .evaluate ∧
    (True ↔ evaluating.scr[0] = 0xEE ∧ evaluating.scr[1] ≠ 0x01) ∧ evaluating.frp.attempt.toNat < 2 ∧
    (timed .evaluate 2 0 p0).frp.buf = .dmem 0x2000 ∧ (0x2000 : Nat) < 2 ^ State.reset.params.addrW ∧
    (False ↔ memRead (timed .evaluate 2 0 p0).dmem (0x2000 : Nat) = 0xEE) ∧
    2 ≤ (timed .evaluate 2 0 p0).frp.attempt.toNat ∧
    (True ↔ memRead ({ timed .evaluate 2 0 p0 with dmem := [(0x2000, 0xEE)] } : State).dmem (0x2000 : Nat) = 0xEE) ∧
    (False ↔ (inFrp .evaluate .read .internal p0).scr[2] = 0xEE) ∧
    (inFrp .evaluate .read (.dmem 0x10000) p0).frp.buf = .dmem 0x10000 ∧ 2 ^ State.reset.params.addrW ≤ 0x10000 := by
  decide
theorem witness_WriteResponseRule :
    evaluating.fg = .frp :: [] ∧ evaluating.frp.phase = .evaluate ∧ evaluating.frp.kind = .write := by decide
theorem witness_SilentReadSucceeds :
    let busy := receivingPort ⟨.dmem, 0x2000⟩ 3 0 0 .clear
    let s := timed .awaitingResponse 0 2 busy
    s.fg = [.frp] ∧ s.frp.phase = .awaitingResponse ∧ s.frp.kind = .read ∧ s.frp.buf = .dmem 0x2000 ∧
    s.ports[s.frp.port.toNat]? = some busy ∧ busy.rx.status = .busy ∧ s.tick = s.frp.t0 + BitVec.ofNat 32 2 ∧
    s.frp.tmo ≤ 2 ∧ (0x2000 : Nat) < 2 ^ s.params.addrW ∧ memRead s.dmem (0x2000 : Nat) ≠ 0xEE := by decide
theorem witness_PassCallsFrp :
    (inPass .readCurrent .selectPage []).fg = .dcm .selectPage :: [] ∧
    (inPass .readCurrent .selectPage []).dcm.port.toNat < (inPass .readCurrent .selectPage []).ports.length ∧
    (inPass .writeNew .setMode [.restore]).fg = .dcm .setMode :: [.restore] ∧ Pass.setMode ≠ .selectPage ∧
    (inPass .readCurrent .selectPage []).dcm.phase = .readCurrent ∧
    (inPass .writeNew .setMode [.restore]).dcm.phase = .writeNew := by decide
theorem witness_PassDecides :
    (inPass .decide .selectPage []).fg = .dcm .selectPage :: [] ∧ (inPass .decide .selectPage []).dcm.phase = .decide := by
  decide

/-- A SET_MODE in Settle from mode `cur` to mode `target`. -/
def settling (cur target : Byte) : State := { inPass .settle .setMode [] with dcm := ⟨.settle, 0, target, cur, 0⟩ }

/-- In its settle delay of 19 ticks, entered at tick 0. -/
def settled (tick : Tick) : State := { settling 0x0C 0x00 with fg := [.delay 19 0, .dcm .setMode], tick := tick }

theorem witness_SettleTable :
    (0x0C : Byte) ≠ Params.vectors.modeConfig ∧ (0x00 : Byte) = Params.vectors.modeConfig := by decide
theorem witness_SetModeSettles :
    (settling 0x0C 0x00).fg = .dcm .setMode :: [] ∧ (settling 0x0C 0x00).dcm.phase = .settle ∧
    (settling 0x0C 0x00).dcm.current ≠ State.reset.params.modeConfig ∧
    (settling 0x0C 0x00).dcm.target = State.reset.params.modeConfig ∧
    (settling 0x00 0x0C).dcm.current = State.reset.params.modeConfig ∧
    (settling 0x00 0x0C).dcm.target ≠ State.reset.params.modeConfig ∧
    ((settling 0x08 0x0C).dcm.current = State.reset.params.modeConfig ↔
      (settling 0x08 0x0C).dcm.target = State.reset.params.modeConfig) ∧
    (settled 18).fg = .delay 19 0 :: .dcm .setMode :: [] ∧ (settled 18).dcm.phase = .settle ∧
    (settled 18).tick = 0 + BitVec.ofNat 32 18 ∧ 18 < (19 : Half).toNat ∧
    (settled 19).tick = 0 + BitVec.ofNat 32 19 ∧ (19 : Half).toNat ≤ 19 := by decide

/-- The read of a pass is done with `st`. -/
def passRead (st : Status) (k : Pass) (phase : DcmPhase) : State :=
  { inFrp (.done st) .read .internal p0 with fg := [.frp, .dcm k], dcm := { Dcm.reset with phase := phase } }

theorem witness_PassReturns :
    (passRead .success .getMode .readCurrent).fg = .frp :: .dcm .getMode :: [] ∧
    (passRead .success .getMode .readCurrent).frp.phase = .done .success ∧
    (passRead .success .getMode .readCurrent).dcm.phase = .readCurrent ∧
    (passRead .error .setMode .writeNew).dcm.phase = .writeNew ∧ Pass.setMode ≠ .getMode ∧
    (inPass (.done .success) .getMode []).fg = [.dcm .getMode] ∧
    (inPass (.done .success) .getMode []).dcm.phase = .done .success := by decide
/-- An ENSURE_CONFIG with `callers` below it has read mode 0C. -/
def modeRead (callers : List Frame) : State :=
  { inPass (.done .success) .getMode (.ensure .reading :: callers) with dcm := ⟨.done .success, 0, 0, 0x0C, 0⟩ }

theorem witness_EnsureAndRestoreReturn :
    (inPass (.done .success) .getMode [.ensure .reading]).fg = [.dcm .getMode, .ensure .reading] ∧
    (inPass (.done .success) .getMode [.ensure .reading]).dcm.phase = .done .success ∧
    (inPass (.done .success) .getMode [.ensure .reading]).dcm.current = State.reset.params.modeConfig ∧
    (modeRead [.settings .ensuring 0 0x3B 1 0x2100]).fg =
      .dcm .getMode :: .ensure .reading :: [.settings .ensuring 0 0x3B 1 0x2100] ∧
    (modeRead []).dcm.phase = .done .success ∧ (modeRead []).dcm.current ≠ (modeRead []).params.modeConfig ∧
    (modeRead []).dcm.port.toNat < (modeRead []).ports.length ∧
    State.reset.params.modeConfig ∈ State.reset.params.modeSet ∧
    (inPass (.done .success) .setMode [.ensure .switching]).fg = [.dcm .setMode, .ensure .switching] ∧
    (inPass (.done .error) .setMode [.ensure .switching]).dcm.phase = .done .error ∧ Status.error ≠ .success ∧
    (inPass (.done .success) .setMode [.restore]).fg = [.dcm .setMode, .restore] := by decide
theorem witness_SettingsWriteInOrder :
    let done := fun k callers => inPass (.done .success) k callers
    (done .getMode [.ensure .reading, .settings .ensuring 0 0x3B 1 0x2100]).dcm.port.toNat < State.reset.ports.length ∧
    (done .getMode [.ensure .reading, .settings .ensuring 0 0x3B 1 0x2100]).dcm.current =
      State.reset.params.modeConfig ∧
    (done .setMode [.ensure .switching, .settings .ensuring 2 0x3B 1 0x2100]).fg =
      [.dcm .setMode, .ensure .switching, .settings .ensuring 2 0x3B 1 0x2100] ∧ (2 : Byte) ≠ 0 ∧ (2 : Byte) ≠ 1 ∧
    (done .selectPage [.settings .paging 0 0x3B 1 0x2100]).fg =
      [.dcm .selectPage, .settings .paging 0 0x3B 1 0x2100] ∧ (0x2100 : Nat) ≠ 0 ∧ (1 : Byte) ≠ 0 ∧
    (inSettingsWrite .success).fg = [.frp, .settings .writing 0 0x3B 1 0x2100] ∧
    (inSettingsWrite .success).frp.phase = .done .success ∧
    (inSettingsWrite .success).dcm.prev ∈ State.reset.params.modeSet ∧
    ({ inSettingsWrite .success with dcm := { Dcm.reset with prev := 0x5A } } : State).dcm.prev ∉
      State.reset.params.modeSet ∧
    (done .getMode [.ensure .reading, .settings .ensuring 2 0x3B 1 0x2100]).fg =
      [.dcm .getMode, .ensure .reading, .settings .ensuring 2 0x3B 1 0x2100] ∧
    (done .selectPage [.settings .paging 0 0x3B 0 0x2100]).fg = [.dcm .selectPage, .settings .paging 0 0x3B 0 0x2100] ∧
    (done .setMode [.restore, .settings .restoring 0 0x3B 1 0x2100]).fg =
      [.dcm .setMode, .restore, .settings .restoring 0 0x3B 1 0x2100] := by decide
theorem witness_FailedWriteRestoresNothing :
    Status.error ≠ .success ∧ (inSettingsWrite .error).fg = [.frp, .settings .writing 0 0x3B 1 0x2100] ∧
    (inSettingsWrite .error).frp.phase = .done .error ∧
    (inPass (.done .invalidParam) .selectPage [.settings .paging 2 0x3B 1 0x2100]).fg =
      [.dcm .selectPage, .settings .paging 2 0x3B 1 0x2100] ∧
    (inPass (.done .error) .getMode [.ensure .reading, .settings .ensuring 0 0x3B 1 0x2100]).dcm.phase = .done .error := by
  decide
theorem witness_RdAnswers : State.reset.ports[State.reset.activePort]? = some p0 ∧ (0xFF : Byte) ≠ 0 := by decide

/-- Port 0 with its device in `mode`. -/
def modePort (mode : Byte) : Port := { p0 with dev := { p0.dev with regs := [(0x3D, mode)] } }

/-- The parameters with register 0x3B of page 0 gated. -/
def gated (mode : Byte) : State :=
  { withPort (modePort mode) with params := { Params.vectors with cfgOnly := [(0, 0x3B)] } }

theorem witness_WrStores_and_DeviceRoundTrip :
    State.reset.ports[State.reset.activePort]? = some p0 ∧ (2 : Byte) ≠ 0 ∧ [0x12, 0x34].length = (2 : Byte).toNat ∧
    ∀ i < (2 : Byte).toNat, (0x55 : Byte) + BitVec.ofNat 8 i ≠ State.reset.params.pageReg ∧
      (0x55 : Byte) + BitVec.ofNat 8 i ≠ State.reset.params.modeReg ∧
      (p0.dev.page, (0x55 : Byte) + BitVec.ofNat 8 i) ∉ State.reset.params.cfgOnly := by decide
theorem witness_WrSwitches :
    State.reset.ports[State.reset.activePort]? = some p0 ∧ State.reset.params.pageReg ≠ State.reset.params.modeReg ∧
    (p0.dev.page, State.reset.params.pageReg) ∉ State.reset.params.cfgOnly ∧
    (p0.dev.page, State.reset.params.modeReg) ∉ State.reset.params.cfgOnly := by decide
theorem witness_DeviceErrorAnswers :
    (gated 0x0C).ports[(gated 0x0C).activePort]? = some (modePort 0x0C) ∧ (1 : Byte) ≠ 0 ∧
    [0x80].length = (1 : Byte).toNat ∧ (1 : Byte) = 1 ∧
    (∃ i < (1 : Byte).toNat, ((modePort 0x0C).dev.page, (0x3B : Byte) + BitVec.ofNat 8 i) ∈ (gated 0x0C).params.cfgOnly) ∧
    memRead (modePort 0x0C).dev.regs (gated 0x0C).params.modeReg.toNat ≠ (gated 0x0C).params.modeConfig := by decide
theorem witness_DeviceErrorAnswers_frames :
    let last (cmd : List Byte) (b : Byte) : Port := { p0 with lineOut := [b], dev := { p0.dev with cmd := cmd } }
    (withPort (last [0xAA, 0x02, 0x3D] 0x00)).ports[0]? = some (last [0xAA, 0x02, 0x3D] 0x00) ∧
    (last [0xAA, 0x02, 0x3D] 0x00).dev.settle = 0 ∧
    (last [0xAA, 0x02, 0x3D] 0x00).dev.cmd ++ [0x00] = 0xAA :: 0x02 :: 0x3D :: 0x00 :: [] ∧
    (last [0xAA, 0x00, 0x3B] 0x00).dev.cmd ++ [0x00] = 0xAA :: 0x00 :: 0x3B :: 0x00 :: [] ∧
    (last [0xAA, 0x01, 0x3B] 0x00).dev.cmd ++ [0x00] = 0xAA :: 0x01 :: 0x3B :: 0x00 :: [] ∧
    (last [0xAA, 0x00, 0x3B, 0x01] 0x80).dev.cmd ++ [0x80] = 0xAA :: 0x00 :: 0x3B :: 0x01 :: [0x80] ∧
    [(0x80 : Byte)].length = (0x01 : Byte).toNat := by decide
theorem witness_PeripheralMovesBytes :
    let full := { p0 with periph := { p0.periph with tdr := some 0xAA, txe := false } }
    let shifting := { p0 with periph := { p0.periph with tsr := some 0xAA } }
    let unread := receivingPort ⟨.dmem, 0x2000⟩ 3 0 0x41 .clear
    (withPort full).ports[0]? = some full ∧ full.periph.tdr = some 0xAA ∧ full.periph.tsr = none ∧
    (withPort shifting).ports[0]? = some shifting ∧ shifting.periph.tsr = some 0xAA ∧ p0.periph.rxne = false ∧
    (withPort unread).ports[0]? = some unread ∧ unread.periph.rxne = true := by decide
theorem witness_PeripheralMovesBytes_device :
    let dev (cmd line out : List Byte) (settle : Nat) : Port :=
      { p0 with lineOut := line, dev := { p0.dev with cmd := cmd, out := out, settle := settle } }
    State.reset.ports.length ≤ 1 ∧ State.reset.ports[0]? = some p0 ∧ p0.dev.out = [] ∧ p0.lineOut = [] ∧
    p0.periph.tdr = none ∧ p0.periph.tsr = none ∧
    (withPort (dev [] [] [0xEE, 0x01] 0)).ports[0]? = some (dev [] [] [0xEE, 0x01] 0) ∧
    (dev [] [] [0xEE, 0x01] 0).dev.out = 0xEE :: [0x01] ∧
    (dev [] [0xAA] [] 1).lineOut = 0xAA :: [] ∧ 0 < (dev [] [0xAA] [] 1).dev.settle ∧
    (dev [] [0x55] [] 0).dev.cmd = [] ∧ (0x55 : Byte) ≠ 0xAA ∧
    (dev [0xAA, 0x00] [0x3B] [] 0).dev.settle = 0 ∧ (dev [0xAA, 0x00] [0x3B] [] 0).dev.cmd ≠ [] ∧
    (dev [0xAA, 0x00] [0x3B] [] 0).dev.cmd.length < 3 ∧
    (dev [0xAA, 0x00, 0x3B] [0x01] [] 0).dev.cmd ++ [0x01] = 0xAA :: 0x00 :: 0x3B :: 0x01 :: [] ∧
    ([] : List Byte).length < (0x01 : Byte).toNat := by decide
/-- A sound state that is not the reset state: a transmit and a receive in flight, an arm about to run. -/
def running : State :=
  { withPort bothPort with moves := [.event [0x80, 0x00]], fg := [.frp],
                           frp := { Frp.reset with phase := .transmitting, addr := 0x3D, len := 1, buf := .dmem 0x2000 } }

theorem witness_PeripheralMovesBytes_outside :
    0xFFFF < 2 ^ State.reset.params.addrW ∧ 2 ^ State.reset.params.addrW ≤ 0x10000 ∧
    State.reset.fg = [] ∧ p0.tx.status = .idle ∧ p0.rx.status = .idle ∧
    running.fg ≠ [] ∧ running.ports[0]? = some bothPort ∧ bothPort.tx.status = .busy := by decide
theorem witness_BlockReset :
    (withPort bothPort).ports[0]? = some bothPort ∧ (withPort bothPort).resetBlock.ports.length = 1 := by decide

theorem witness_invariants :
    running.sound ∧ running.legal ∧ running.memorySound ∧ running.wireSound ∧ running.periphSound ∧ (after (step running)).isSome = true := by
  decide

theorem witness_TransmitEndsByCompletion :
    let s := { withPort completingPort with moves := [.event [0x81, 0x00]] }
    s.ports[0]? = some completingPort ∧ completingPort.tx.status = .busy ∧
    (after (step s)).map (fun t => t.ports.map (·.tx.status)) = some [.idle] := by decide
theorem witness_OnlyNamedInstructionsWrite :
    (after (exec (.beginRx 0 0x2000 3) State.reset)).map (·.ports.length) = some 1 ∧
    State.reset.ports[0]? = some p0 ∧ Instr.beginRx 0 0x2000 3 ≠ .tick := by decide

end Sys2Proof.Tests
end

section
/-! SUPPORT. What one step can do to a port and to the state, said once: `PortChange` for a port, `ExecNext` for an
instruction, `step_ports` for a step of any agent. The invariants and frames below are read off them. -/

namespace Sys2Proof.Machine

/-! ### What a step can do to one port -/

/-- Everything of a port stays that only the block itself writes: its registers and its two wire streams. -/
def OutsideOnly (port port' : Port) : Prop :=
  port'.tx = port.tx ∧ port'.rx = port.rx ∧ port'.initDone = port.initDone ∧ port'.txBegun = port.txBegun ∧
  port'.rxBegun = port.rxBegun ∧ port'.wireOut = port.wireOut ∧ port'.wireIn = port.wireIn

theorem OutsideOnly.refl (port : Port) : OutsideOnly port port := ⟨rfl, rfl, rfl, rfl, rfl, rfl, rfl⟩

theorem OutsideOnly.trans {a b c : Port} (h : OutsideOnly a b) (h' : OutsideOnly b c) : OutsideOnly a c := by
  obtain ⟨h1, h2, h3, h4, h5, h6, h7⟩ := h
  obtain ⟨g1, g2, g3, g4, g5, g6, g7⟩ := h'
  exact ⟨g1.trans h1, g2.trans h2, g3.trans h3, g4.trans h4, g5.trans h5, g6.trans h6, g7.trans h7⟩

theorem Port.txLoad_outsideOnly (port : Port) : OutsideOnly port port.txLoad := by
  unfold Port.txLoad
  split <;> exact OutsideOnly.refl _

theorem Port.txShiftOut_outsideOnly (port : Port) : OutsideOnly port port.txShiftOut := by
  unfold Port.txShiftOut
  split <;> exact OutsideOnly.refl _

theorem Port.rxArrive_outsideOnly (port : Port) (b : Byte) (fe pe ne : Bool) :
    OutsideOnly port (port.rxArrive b fe pe ne) := by
  unfold Port.rxArrive
  split <;> exact OutsideOnly.refl _

theorem Port.devSend_outsideOnly (port : Port) (fe pe ne : Bool) : OutsideOnly port (port.devSend fe pe ne) := by
  unfold Port.devSend
  split
  · exact OutsideOnly.refl _
  · exact OutsideOnly.trans (b := { port with dev := _ }) (OutsideOnly.refl port)
      (Port.rxArrive_outsideOnly _ _ _ _ _)

/-- The destinations a receive is bound to: DMEM for a host's BEGIN_RX, and in the row ArmReceive of R171 the one of
the FRP operation, for as many bytes as its response has. -/
def RxBinding (r : Frp) (dest : Dest) (n : Half) : Prop :=
  dest.space = .dmem ∨ (r.phase = .armReceive ∧ dest = r.dest ∧ n = BitVec.ofNat 16 r.responseCount)

/-- What a step other than the reset of the block can do to port `p`, with the instruction the step runs, where the
change depends on it. `c` and `r` are the parameters and the FRP's registers before the step. -/
inductive PortChange (c : Params) (r : Frp) (p : Nat) (port : Port) : Option Instr → Port → Prop
  | same (l : Option Instr) : PortChange c r p port l port
  | bringUp (q : Byte) (hq : q.toNat = p) (hinit : port.initDone = false) (htx : port.txBegun = false)
      (hrx : port.rxBegun = false) : PortChange c r p port (some (.portInit q)) port.bringUp
  | startTx (l : Option Instr) (bytes : List Byte) (hpos : bytes.length ≠ 0) (hcap : bytes.length ≤ c.txCap)
      (hlen : bytes.length < 2 ^ 16) (hidle : port.tx.status = .idle) : PortChange c r p port l (port.startTx bytes)
  | startRx (l : Option Instr) (dest : Dest) (n : Half) (hpos : n ≠ 0) (hdest : RxBinding r dest n) :
      PortChange c r p port l (port.startRx dest n)
  | abortRx (l : Option Instr) : PortChange c r p port l port.abortRx
  | handOver (q b : Byte) (hpending : port.pendingTxe = true) (hb : port.tx.buf[port.tx.cur.toNat]? = some b) :
      PortChange c r p port (some (.irqTxe q)) (port.handOver b)
  | completeTx (q : Byte) (hq : q.toNat = p) (hpending : port.pendingTc = true) :
      PortChange c r p port (some (.irqTc q)) port.completeTx
  | dropRx (q : Byte) : PortChange c r p port (some (.irqRxne q)) port.dropRx
  | countRx (q : Byte) (hpending : port.pendingRxne = true) : PortChange c r p port (some (.irqRxne q)) port.countRx
  | device (l : Option Instr) (d : Device) : PortChange c r p port l { port with dev := d }
  | outside (port' : Port) (h : OutsideOnly port port') : PortChange c r p port none port'

/-! ### Relations on all ports of two states -/

/-- The parameters and the number of ports stay, and every port is in the relation `R` to what it becomes. -/
structure PortsRel (R : Nat → Port → Port → Prop) (s t : State) : Prop where
  params : t.params = s.params
  length : t.ports.length = s.ports.length
  rel : ∀ p port port', s.ports[p]? = some port → t.ports[p]? = some port' → R p port port'

section
variable {R : Nat → Port → Port → Prop}

theorem PortsRel.mono {R' : Nat → Port → Port → Prop} {s t : State} (h : PortsRel R s t)
    (himp : ∀ p port port', R p port port' → R' p port port') : PortsRel R' s t :=
  ⟨h.params, h.length, fun p port port' hp ht => himp _ _ _ (h.rel p port port' hp ht)⟩

theorem PortsRel.trans (htrans : ∀ p a b c, R p a b → R p b c → R p a c) {s t u : State} (h : PortsRel R s t)
    (h' : PortsRel R t u) : PortsRel R s u := by
  refine ⟨h'.params.trans h.params, h'.length.trans h.length, fun p port port' hp hu => ?_⟩
  obtain ⟨mid, ht⟩ : ∃ mid, t.ports[p]? = some mid := by
    obtain ⟨hlt, -⟩ := List.getElem?_eq_some_iff.mp hp
    exact ⟨_, List.getElem?_eq_getElem (h.length ▸ hlt)⟩
  exact htrans _ _ _ _ (h.rel p port mid hp ht) (h'.rel p mid port' ht hu)

theorem PortsRel.of_ports_eq (hrefl : ∀ p port, R p port port) {s t : State} (hparams : t.params = s.params)
    (hports : t.ports = s.ports) : PortsRel R s t := by
  refine ⟨hparams, by rw [hports], fun p port port' hp ht => ?_⟩
  rw [hports, hp] at ht
  cases ht
  exact hrefl p port

theorem PortsRel.of_ports_set (hrefl : ∀ p port, R p port port) {s t : State} {q : Nat} {port port' : Port}
    (hparams : t.params = s.params) (hports : t.ports = s.ports.set q port') (hq : s.ports[q]? = some port)
    (h : R q port port') : PortsRel R s t := by
  refine ⟨hparams, by simp [hports], fun p a b hp ht => ?_⟩
  rw [hports] at ht
  by_cases hpq : q = p
  · subst hpq
    obtain ⟨hlt, -⟩ := List.getElem?_eq_some_iff.mp hq
    rw [List.getElem?_set_self hlt] at ht
    cases ht
    cases hq.symm.trans hp
    exact h
  · rw [List.getElem?_set_ne hpq, hp] at ht
    cases ht
    exact hrefl p a

/-- A property of a port that the relation keeps is kept on all ports. -/
theorem PortsRel.forall_mem {P Q : Port → Prop} {s t : State} (h : PortsRel R s t)
    (hkeep : ∀ p port port', R p port port' → P port → Q port') (hs : ∀ port ∈ s.ports, P port) :
    ∀ port ∈ t.ports, Q port := by
  intro port' hmem
  obtain ⟨p, ht⟩ := List.mem_iff_getElem?.mp hmem
  obtain ⟨hlt, -⟩ := List.getElem?_eq_some_iff.mp ht
  have hp := List.getElem?_eq_getElem (h.length ▸ hlt : p < s.ports.length)
  exact hkeep p _ _ (h.rel p _ _ hp ht) (hs _ (List.mem_of_getElem? hp))

end

/-! ### What an instruction that goes on can do -/

/-- What `exec` can answer in state `s` when it goes on. -/
inductive ExecNext (s : State) : Instr → State → Prop
  | returned {i : Instr} (hi : i.channel = .host) (hfg : s.fg = []) (st : Status) (v : ReturnValue) :
      ExecNext s i (s.returned st v)
  | transport {i : Instr} (hi : i.channel = .host) (hfg : s.fg = []) {q : Nat} {port port' : Port}
      (hq : s.ports[q]? = some port) (h : PortChange s.params s.frp q port (some i) port') (st : Status) :
      ExecNext s i ((s.setPort q port').returned st .none)
  | delay (hfg : s.fg = []) (n : Half) : ExecNext s (.delay n) (s.started.setFg [.delay n s.tick])
  | issueRead {i : Instr} (hi : i.channel = .host) (hfg : s.fg = []) (p addr len : Byte) (a : Nat) :
      ExecNext s i (issueRead p addr len (.dmem a) [] s.started)
  | issueWrite {i : Instr} (hi : i.channel = .host) (hfg : s.fg = []) (p addr len : Byte) (a : Nat) :
      ExecNext s i (issueWrite p addr len (.dmem a) [] s.started)
  | issuePass {i : Instr} (hi : i.channel = .host) (hfg : s.fg = []) (k : Pass) (p target : Byte)
      (callers : List Frame) (hcallers : callersOk k callers = true) :
      ExecNext s i (issuePass k p target callers s.started)
  | notPending {i : Instr} (hi : i.channel = .event) : ExecNext s i s
  | arm {i : Instr} {q : Byte} (hi : i ∈ [.irqTxe q, .irqTc q, .irqRxne q]) {port port' : Port}
      (hq : s.ports[q.toNat]? = some port) (h : PortChange s.params s.frp q.toNat port (some i) port') :
      ExecNext s i (s.setPort q.toNat port')
  | stored {q b : Byte} {port : Port} (hq : s.ports[q.toNat]? = some port) (hpending : port.pendingRxne = true)
      {u : State} (hu : writeByte s port.rx.dest.space port.rxAddr b = .ok u) :
      ExecNext s (.irqRxne q) (u.setPort q.toNat port.countRx)
  | tick : ExecNext s .tick { s with tick := s.tick + 1, ports := s.ports.map Port.devTick }
  | answered {i : Instr} (hi : i.channel = .frame) {port : Port} (hq : s.ports[s.activePort]? = some port) (d : Device)
      (n : Nat) : ExecNext s i { s.setDev s.activePort port d with draws := n }
  | header {i : Instr} (hi : i.channel = .response) (b0 b1 : Byte) : ExecNext s i (evaluateHeader b0 b1 s)

section
variable {s t : State}

/-- A host operation with a port operand answers InvalidParam, or what it answers on the port. -/
theorem execNext_of_onPort {i : Instr} {p : Byte} {k : Port → Result} (hi : i.channel = .host)
    (h : foreground s (onPort p s k) = .next t)
    (hk : ∀ port, s.fg = [] → s.ports[p.toNat]? = some port → k port = .next t → ExecNext s i t) : ExecNext s i t := by
  obtain ⟨hfg, h⟩ := foreground_next _ _ _ h
  obtain ⟨-, hnone⟩ | ⟨port, hp, hsome⟩ := onPort_cases p s k
  · cases hnone.symm.trans h
    exact .returned hi hfg _ _
  · exact hk port hfg hp (hsome.symm.trans h)

theorem execPortInit_next {p : Byte} (h : execPortInit p s = .next t) : ExecNext s (.portInit p) t := by
  refine execNext_of_onPort rfl h fun port hfg hp hk => ?_
  split at hk
  · cases hk
  · split at hk
    · cases hk
    · rename_i hinit hbegun
      obtain ⟨htx, hrx⟩ : port.txBegun = false ∧ port.rxBegun = false := by simpa using hbegun
      cases hk
      exact .transport rfl hfg hp (.bringUp p rfl (by simpa using hinit) htx hrx) _

/-- The internal BEGIN_TX, called by a host operation, starts a transfer or changes nothing. -/
theorem execNext_of_beginTx {i : Instr} {p : Nat} {bytes : List Byte} (hi : i.channel = .host) (hfg : s.fg = [])
    (hlen : bytes.length < 2 ^ 16) : ExecNext s i ((beginTx p bytes s).2.returned (beginTx p bytes s).1 .none) := by
  obtain ⟨port, hp, hpos, hcap, hidle, h⟩ | ⟨st, -, h⟩ := beginTx_cases p bytes s
  · rw [h]
    exact .transport hi hfg hp (.startTx _ bytes hpos hcap hlen hidle) _
  · rw [h]
    exact .returned hi hfg _ _

theorem execBeginTx_next {p : Byte} {src : Nat} {n : Half} (h : execBeginTx p src n s = .next t) :
    ExecNext s (.beginTx p src n) t := by
  refine execNext_of_onPort rfl h fun port hfg hp hk => ?_
  split at hk
  · cases hk
    exact .returned rfl hfg _ _
  · split at hk
    · split at hk
      · rename_i bytes hread
        cases hk
        have hlen : bytes.length < 2 ^ 16 := by
          rw [readDmem_length s src n.toNat bytes hread]; exact n.isLt
        exact execNext_of_beginTx rfl hfg hlen
      · cases hk
    · cases hk
      exact .returned rfl hfg _ _

theorem execBeginRx_next {p : Byte} {dst : Nat} {n : Half} (h : execBeginRx p dst n s = .next t) :
    ExecNext s (.beginRx p dst n) t := by
  obtain ⟨hfg, h⟩ := foreground_next _ _ _ h
  cases h
  obtain ⟨port, hp, -, hpos, -, h⟩ | ⟨st, -, h⟩ := beginRx_cases p.toNat ⟨.dmem, dst⟩ n s
  · rw [h]
    exact .transport rfl hfg hp (.startRx _ _ n hpos (.inl rfl)) _
  · rw [h]
    exact .returned rfl hfg _ _

theorem execAbortRx_next {p : Byte} (h : execAbortRx p s = .next t) : ExecNext s (.abortRx p) t := by
  refine execNext_of_onPort rfl h fun port hfg hp hk => ?_
  cases hk
  obtain ⟨-, h⟩ | ⟨q, hq, h⟩ := abortRx_cases p.toNat s
  · rw [h]
    exact .returned rfl hfg _ _
  · rw [h]
    exact .transport rfl hfg hq (.abortRx _) _

theorem execComputeTimeout_next {b w q d n : Nat} {m : Margin} (h : execComputeTimeout b w q d n m s = .next t) :
    ExecNext s (.computeTimeout b w q d n m) t := by
  obtain ⟨hfg, h⟩ := foreground_next _ _ _ h
  split at h
  · cases h
    exact .returned rfl hfg _ _
  · cases h

theorem execDelay_next {n : Half} (h : execDelay n s = .next t) : ExecNext s (.delay n) t := by
  obtain ⟨hfg, h⟩ := foreground_next _ _ _ h
  split at h
  · cases h
    exact .returned rfl hfg _ _
  · cases h
    exact .delay hfg n

theorem execIrqTxe_next {p : Byte} (h : execIrqTxe p s = .next t) : ExecNext s (.irqTxe p) t := by
  obtain ⟨hnot, -⟩ | ⟨port, hp, hpending, harm⟩ := takeInterrupt_cases p s Port.pendingTxe _
  · cases hnot.symm.trans h
    exact .notPending rfl
  · replace h := harm.symm.trans h
    split at h
    · cases h
    · cases h
      exact .arm (by simp) hp (.handOver p _ hpending ‹_›)

theorem execIrqTc_next {p : Byte} (h : execIrqTc p s = .next t) : ExecNext s (.irqTc p) t := by
  obtain ⟨hnot, -⟩ | ⟨port, hp, hpending, harm⟩ := takeInterrupt_cases p s Port.pendingTc _
  · cases hnot.symm.trans h
    exact .notPending rfl
  · cases harm.symm.trans h
    exact .arm (by simp) hp (.completeTx p rfl hpending)

theorem execIrqRxne_next {p : Byte} (h : execIrqRxne p s = .next t) : ExecNext s (.irqRxne p) t := by
  obtain ⟨hnot, -⟩ | ⟨port, hp, hpending, harm⟩ := takeInterrupt_cases p s Port.pendingRxne _
  · cases hnot.symm.trans h
    exact .notPending rfl
  · replace h := harm.symm.trans h
    split at h
    · cases h
      exact .arm (by simp) hp (.dropRx p)
    · split at h
      · rename_i u hu
        cases h
        exact .stored hp hpending hu
      · cases h

theorem execRd_next {reg len : Byte} (h : execRd reg len s = .next t) : ExecNext s (.rd reg len) t := by
  unfold execRd at h
  split at h
  · cases h
  · split at h <;> cases h
    · exact .answered rfl ‹_› _ _
    · exact .answered rfl ‹_› _ s.draws

theorem execWr_next {reg len : Byte} {payload : List Byte} (h : execWr reg len payload s = .next t) :
    ExecNext s (.wr reg len payload) t := by
  unfold execWr at h
  split at h
  · cases h
  · split at h
    · cases h
      exact .answered rfl ‹_› _ _
    · split at h <;> cases h
      · exact .answered rfl ‹_› _ _
      · exact .answered rfl ‹_› _ s.draws

/-- An instruction that goes on does one of the things `ExecNext` lists. -/
theorem exec_next {i : Instr} (h : exec i s = .next t) : ExecNext s i t := by
  cases i with
  | portInit => exact execPortInit_next h
  | beginTx => exact execBeginTx_next h
  | beginRx => exact execBeginRx_next h
  | abortRx => exact execAbortRx_next h
  | txStatus | rxStatus =>
    refine execNext_of_onPort rfl h fun port hfg hp hk => ?_
    cases hk
    exact .returned rfl hfg _ _
  | computeTimeout => exact execComputeTimeout_next h
  | delay => exact execDelay_next h
  | readReg =>
    obtain ⟨hfg, h⟩ := foreground_next _ _ _ h
    cases h
    exact .issueRead rfl hfg _ _ _ _
  | writeReg =>
    obtain ⟨hfg, h⟩ := foreground_next _ _ _ h
    cases h
    exact .issueWrite rfl hfg _ _ _ _
  | selectPage | getMode | setMode | ensureConfig | restoreMode | settingsWrite =>
    obtain ⟨hfg, h⟩ := foreground_next _ _ _ h
    cases h
    exact .issuePass rfl hfg _ _ _ _ rfl
  | irqTxe => exact execIrqTxe_next h
  | irqTc => exact execIrqTc_next h
  | irqRxne => exact execIrqRxne_next h
  | tick => cases h; exact .tick
  | rd => exact execRd_next h
  | wr => exact execWr_next h
  | rsp => cases h; exact .header rfl _ _
  | rspErr => cases h; exact .header rfl _ _

end

/-- A byte write that succeeds changes DMEM or SCR at that address and nothing else. -/
theorem writeByte_ok {s u : State} {sp : Space} {a : Nat} {b : Byte} (h : writeByte s sp a b = .ok u) :
    (sp = .dmem ∧ u = { s with dmem := memWrite s.dmem a b }) ∨
    (sp = .scr ∧ u = { s with scr := s.scr.setIfInBounds a b }) := by
  obtain ⟨hsp, -, h'⟩ | ⟨-, -, h'⟩ | ⟨hsp, -, h'⟩ | ⟨-, -, h'⟩ := writeByte_cases s sp a b
  all_goals cases h'.symm.trans h
  · exact .inl ⟨hsp, rfl⟩
  · exact .inr ⟨hsp, rfl⟩

end Sys2Proof.Machine
end

section
/-! SUPPORT. Frames of the instructions: what no instruction writes, what only one does, and what the handler arms
leave alone. -/

namespace Sys2Proof.Machine

theorem PortsRel.of_ports_map {R : Nat → Port → Port → Prop} {s t : State} {f : Port → Port}
    (hparams : t.params = s.params) (hports : t.ports = s.ports.map f) (h : ∀ p port, R p port (f port)) :
    PortsRel R s t := by
  refine ⟨hparams, by simp [hports], fun p port port' hp ht => ?_⟩
  rw [hports, List.getElem?_map, hp] at ht
  cases ht
  exact h p port

/-- What only moves the sequencers is in no relation's way. -/
theorem SequencerOnly.portsRel {R : Nat → Port → Port → Prop} (hrefl : ∀ p port, R p port port) {s t : State}
    (h : SequencerOnly s t) : PortsRel R s t := by
  obtain ⟨hparams, hports, -⟩ := h
  exact .of_ports_eq hrefl hparams hports

/-- The change of the ports that instruction `i` makes. -/
abbrev InstrPorts (i : Instr) (s t : State) : Prop :=
  PortsRel (fun p port port' => PortChange s.params s.frp p port (some i) port') s t

/-- Who writes what: the ports as `PortChange` lists it for the instruction, the clock TICK, DMEM IRQ_RXNE. -/
structure InstrWrites (i : Instr) (s t : State) : Prop where
  ports : InstrPorts i s t
  tick : i ≠ .tick → t.tick = s.tick
  dmem : (∀ p, i ≠ .irqRxne p) → t.dmem = s.dmem

section
variable {s t : State} {i : Instr}

theorem SequencerOnly.instrWrites (h : SequencerOnly s t) : InstrWrites i s t := by
  have hports : InstrPorts i s t := h.portsRel fun _ _ => .same _
  obtain ⟨-, -, hdmem, htick, -⟩ := h
  exact ⟨hports, fun _ => htick, fun _ => hdmem⟩

theorem ExecNext.instrWrites (h : ExecNext s i t) : InstrWrites i s t := by
  have hsame : ∀ p port, PortChange s.params s.frp p port (some i) port := fun _ _ => .same _
  cases h with
  | returned | delay | notPending => exact SequencerOnly.instrWrites (SequencerOnly.refl s)
  | issueRead => exact SequencerOnly.instrWrites (issueRead_sequencerOnly _ _ _ _ _ s.started)
  | issueWrite => exact SequencerOnly.instrWrites (issueWrite_sequencerOnly _ _ _ _ _ s.started)
  | issuePass => exact SequencerOnly.instrWrites (issuePass_sequencerOnly _ _ _ _ s.started)
  | header => exact SequencerOnly.instrWrites (evaluateHeader_sequencerOnly _ _ s)
  | transport _ _ hq hchange | arm _ hq hchange =>
    exact ⟨.of_ports_set hsame rfl rfl hq hchange, fun _ => rfl, fun _ => rfl⟩
  | answered _ hq d => exact ⟨.of_ports_set hsame rfl rfl hq (.device _ d), fun _ => rfl, fun _ => rfl⟩
  | tick => exact ⟨.of_ports_map rfl rfl fun _ _ => .device _ _, fun hi => absurd rfl hi, fun _ => rfl⟩
  | stored hq hpending hu =>
    obtain ⟨-, rfl⟩ | ⟨-, rfl⟩ := writeByte_ok hu <;>
      exact ⟨.of_ports_set hsame rfl rfl hq (.countRx _ hpending), fun _ => rfl, fun hi => absurd rfl (hi _)⟩

end

section
variable {c : Params} {r : Frp} {p : Nat} {port port' : Port} {i : Instr}

theorem PortChange.line_eq (h : PortChange c r p port (some i) port') : port'.line = port.line := by
  cases h <;> simp

theorem PortChange.wireOut_eq (h : PortChange c r p port (some i) port') (hi : ∀ q, i ≠ .irqTxe q) :
    port'.wireOut = port.wireOut := by
  cases h with
  | handOver => exact absurd rfl (hi _)
  | _ => simp

theorem PortChange.wireIn_eq (h : PortChange c r p port (some i) port') (hi : ∀ q, i ≠ .irqRxne q) :
    port'.wireIn = port.wireIn := by
  cases h with
  | dropRx | countRx => exact absurd rfl (hi _)
  | _ => simp

end

/-- Settles O60: each clause is read off what an instruction that goes on can do. -/
theorem onlyNamedInstructionsWrite : Obligations.OnlyNamedInstructionsWrite := by
  intro i s t h
  obtain ⟨hports, htick, hdmem⟩ := (exec_next h).instrWrites
  refine ⟨hports.params, hports.length, htick, hdmem, fun p port port' hp ht => ?_⟩
  have hchange := hports.rel p port port' hp ht
  exact ⟨hchange.line_eq, hchange.wireOut_eq, hchange.wireIn_eq⟩

/-! ### The frame of the handler arms -/

/-- What every handler arm leaves alone, whatever it stores. -/
def ArmKeeps (s t : State) : Prop :=
  t.frp = s.frp ∧ t.dcm = s.dcm ∧ t.fg = s.fg ∧ t.ret = s.ret ∧ t.tick = s.tick ∧ t.params = s.params ∧
  t.commands = s.commands ∧ t.moves = s.moves ∧ t.draws = s.draws ∧ t.activePort = s.activePort

/-- An arm that goes on replaces its own port at most; of the memories it writes, as IRQ_RXNE, the byte that the
port's destination and cursor give. -/
theorem arm_cases {s t : State} {p : Byte} {i : Instr} (hi : i ∈ [Instr.irqTxe p, .irqTc p, .irqRxne p])
    (h : exec i s = .next t) :
    t = s ∨ (∃ port', t = s.setPort p.toNat port') ∨
    (i = .irqRxne p ∧ ∃ port port' u b, s.ports[p.toNat]? = some port ∧
      writeByte s port.rx.dest.space port.rxAddr b = .ok u ∧ t = u.setPort p.toNat port') := by
  have hevent : i.channel = .event := by
    simp only [List.mem_cons, List.not_mem_nil, or_false] at hi
    obtain rfl | rfl | rfl := hi <;> rfl
  cases exec_next h with
  | returned hi' | transport hi' | issueRead hi' | issueWrite hi' | issuePass hi' | answered hi' | header hi' =>
    cases hevent.symm.trans hi'
  | delay => cases hevent
  | tick => simp at hi
  | notPending => exact .inl rfl
  | @arm _ q hi' =>
    obtain rfl : p = q := by
      simp only [List.mem_cons, List.not_mem_nil, or_false] at hi hi'
      obtain rfl | rfl | rfl := hi <;> simpa using hi'
    exact .inr (.inl ⟨_, rfl⟩)
  | @stored q _ _ hq _ _ hu =>
    obtain rfl : q = p := by simpa using hi
    exact .inr (.inr ⟨rfl, _, _, _, _, hq, hu, rfl⟩)

/-- Settles O23, along the three things an arm can do: nothing, replace its port, or store a byte as well. -/
theorem serialArmsFrame : Obligations.SerialArmsFrame := by
  intro s t p i hi h
  have hother : ∀ (u : State) port' q, q ≠ p.toNat → (u.setPort p.toNat port').ports[q]? = u.ports[q]? :=
    fun u port' q hq => u.setPort_getElem?_ne p.toNat q port' hq
  suffices hframe : ArmKeeps s t ∧ (∀ q, q ≠ p.toNat → t.ports[q]? = s.ports[q]?) ∧
      (∀ a, (i ≠ .irqRxne p ∨ ∀ port, s.ports[p.toNat]? = some port → port.rx.dest.space ≠ .dmem ∨ a ≠ port.rxAddr) →
        memRead t.dmem a = memRead s.dmem a) ∧
      ∀ k, (i ≠ .irqRxne p ∨ ∀ port, s.ports[p.toNat]? = some port → port.rx.dest.space ≠ .scr ∨ k ≠ port.rxAddr) →
        t.scr[k]? = s.scr[k]? by
    simpa only [ArmKeeps, and_assoc] using hframe
  obtain rfl | ⟨port', rfl⟩ | ⟨rfl, port, port', u, b, hp, hu, rfl⟩ := arm_cases hi h
  · simp [ArmKeeps]
  · exact ⟨by simp [ArmKeeps], hother s port', fun _ _ => rfl, fun _ _ => rfl⟩
  · obtain ⟨hsp, rfl⟩ | ⟨hsp, rfl⟩ := writeByte_ok hu
    · refine ⟨by simp [ArmKeeps], hother _ port', fun a ha => ?_, fun _ _ => rfl⟩
      have hne : a ≠ port.rxAddr := by simpa [hp, hsp] using ha
      exact memRead_memWrite_ne _ _ _ _ hne
    · refine ⟨by simp [ArmKeeps], hother _ port', fun _ _ => rfl, fun k hk => ?_⟩
      have hne : port.rxAddr ≠ k := by simpa [hp, hsp, eq_comm] using hk
      simp [hne]

end Sys2Proof.Machine
end

section
/-! SUPPORT. What the decoders answer on each channel and read back from a host record, with the first step after it;
the state after reset, and the reset of the block. -/

namespace Sys2Proof

/-! ### The channel of a decoded instruction -/

/-- Whatever instruction the decoder answers travels on channel `c`. -/
def Decoded.OnChannel (c : Channel) (d : Decoded) : Prop := ∀ i rest, d = .ok (i, rest) → i.channel = c

section
variable {c : Channel} {r : List Byte}

@[simp] theorem Decoded.onChannel_ok {i : Instr} : Decoded.OnChannel c (.ok (i, r)) ↔ i.channel = c :=
  ⟨fun h => h i r rfl, fun h _ _ hok => by cases hok; exact h⟩

@[simp] theorem Decoded.onChannel_error {e : DecodeError} : Decoded.OnChannel c (.error e) :=
  fun _ _ hok => nomatch hok

@[simp] theorem takeByte_onChannel {k : Byte → List Byte → Decoded} :
    (takeByte r k).OnChannel c ↔ ∀ b r', r = b :: r' → (k b r').OnChannel c := by
  cases r <;> simp [takeByte]

@[simp] theorem takeNat_onChannel {n : Nat} {k : Nat → List Byte → Decoded} :
    (takeNat n r k).OnChannel c ↔ (n ≤ r.length → (k (bytesNat (r.take n)) (r.drop n)).OnChannel c) := by
  unfold takeNat
  split <;> simp [*]

@[simp] theorem takeHalf_onChannel {k : Half → List Byte → Decoded} :
    (takeHalf r k).OnChannel c ↔
      (2 ≤ r.length → (k (BitVec.ofNat 16 (bytesNat (r.take 2))) (r.drop 2)).OnChannel c) := takeNat_onChannel

end

theorem decodeHost_onChannel (size : Nat) (bytes : List Byte) : (decodeHost size bytes).OnChannel .host := by
  unfold decodeHost
  split
  · unfold decodeOperands
    split <;> simp [Instr.channel]
  · simp

theorem decodeEvent_onChannel (record : List Byte) : (decodeEvent record).OnChannel .event := by
  unfold decodeEvent
  split
  · simp
  · split <;> simp [Instr.channel]

theorem decodeFrame_onChannel (cmd : List Byte) : (decodeFrame cmd).OnChannel .frame := by
  unfold decodeFrame
  split
  · repeat' split
    all_goals simp [Instr.channel]
  · simp

theorem decodeResponse_onChannel (bytes : List Byte) : (decodeResponse bytes).OnChannel .response := by
  unfold decodeResponse
  split
  · split <;> simp [Instr.channel]
  · simp

/-! ### A host record is read back -/

@[simp] theorem takeByte_cons (b : Byte) (r : List Byte) (k : Byte → List Byte → Decoded) :
    takeByte (b :: r) k = k b r := rfl

/-- Decoding the record of a well-formed host operation gives it back, with the bytes after it. -/
theorem decodeHost_encode {size : Nat} {i : Instr} (rest : List Byte) (hwf : i.wf size = true)
    (hi : i.channel = .host) : decodeHost size (encode size i ++ rest) = .ok (i, rest) := by
  cases i with
  | irqTxe | irqTc | irqRxne | tick | rd | wr | rsp | rspErr => cases hi
  | computeTimeout b w p h n m =>
    simp only [Instr.wf, Bool.and_eq_true, decide_eq_true_eq, Nat.reducePow] at hwf
    obtain ⟨⟨⟨⟨⟨⟨hb, hw⟩, hp⟩, hh⟩, hn⟩, hnum⟩, hden⟩ := hwf
    simp [encode, decodeHost, decodeOperands, hb, hn, hnum, hden, Nat.mod_eq_of_lt hw, Nat.mod_eq_of_lt hp,
      Nat.mod_eq_of_lt hh]
  | portInit | abortRx | txStatus | rxStatus | delay | selectPage | getMode | setMode | ensureConfig | restoreMode =>
    simp [encode, decodeHost, decodeOperands]
  | beginTx | beginRx | readReg | writeReg | settingsWrite =>
    have haddr := of_decide_eq_true hwf
    simp [encode, decodeHost, decodeOperands, haddr]

end Sys2Proof

namespace Sys2Proof.Machine

/-! ### A step runs the record at the head of the command stream -/

theorem fgTurn_idle {s : State} (h : s.fg = []) : fgTurn s = fetchHost s := by simp [fgTurn, h]

/-- A host record at the head of the command stream runs in FG's idle turn. -/
theorem fetchHost_decoded {s : State} {i : Instr} {rest : List Byte}
    (h : decodeHost s.params.addrSize s.commands = .ok (i, rest)) :
    fetchHost s = exec i { s with commands := rest } := by
  unfold fetchHost
  cases hc : s.commands with
  | nil => rw [hc] at h; cases h
  | cons sel r => rw [hc] at h; simp [h]

/-- Settles O5: the record is decoded back and fetched, with or without FG's move listed. -/
theorem stepRunsHostRecord : Obligations.StepRunsHostRecord := by
  intro s i rest hwf hi hfg hcommands
  have hdecode : decodeHost s.params.addrSize s.commands = .ok (i, rest) := by
    rw [hcommands]
    exact decodeHost_encode rest hwf hi
  refine ⟨fun hmoves => ?_, fun ms hmoves => ?_⟩
  · calc step s = fgTurn s := by simp [step, nextStep, hmoves]
      _ = exec i { s with commands := rest } := (fgTurn_idle hfg).trans (fetchHost_decoded hdecode)
  · calc step s = fgTurn { s with moves := ms } := by simp [step, nextStep, hmoves, runMove]
      _ = exec i { s with commands := rest, moves := ms } :=
        (fgTurn_idle (s := { s with moves := ms }) hfg).trans (fetchHost_decoded (s := { s with moves := ms }) hdecode)

/-! ### Reset -/

/-- Settles O53: the reset state is one literal state; only the device's registers are looked at for every key. -/
theorem resetIsSound : Obligations.ResetIsSound := by
  obtain ⟨hsound, hlegal, hmemory, hwire, hperiph⟩ : State.reset.sound ∧ State.reset.legal ∧
      State.reset.memorySound ∧ State.reset.wireSound ∧ State.reset.periphSound := by decide
  refine ⟨hsound, hlegal, hmemory, hwire, hperiph, rfl, rfl, rfl, fun port hport => ?_⟩
  obtain rfl : port = Port.reset Params.vectors LineConfig.vectors := List.mem_singleton.mp hport
  exact ⟨rfl, rfl, rfl, rfl, rfl, rfl, rfl, rfl, rfl, rfl, rfl, rfl, rfl, rfl, fun _ _ => rfl, rfl, rfl, rfl⟩

/-- Settles O54: the reset of the block maps `Port.resetBlock` over the ports. -/
theorem blockReset : Obligations.BlockReset := by
  intro s
  refine ⟨s.resetBlock, rfl, rfl, rfl, rfl, rfl, rfl, rfl, by simp [State.resetBlock], fun p port port' hp ht => ?_⟩
  obtain rfl : port.resetBlock s.params = port' := by simpa [State.resetBlock, hp] using ht
  exact ⟨rfl, rfl, rfl, rfl, rfl, rfl, rfl, rfl, rfl, rfl⟩

end Sys2Proof.Machine
end

section
/-! SUPPORT. What a step of any agent can do to the ports: the rows of R171 and R190, FG's turn, the environment's
moves, and from them a step. -/

namespace Sys2Proof.Machine

/-! ### The rows of R171 -/

/-- A step changes the ports in ways that depend on no instruction, if at all. -/
abbrev SilentPorts (s t : State) : Prop :=
  PortsRel (fun p port port' => PortChange s.params s.frp p port none port') s t

theorem SequencerOnly.silentPorts {s t : State} (h : SequencerOnly s t) : SilentPorts s t :=
  h.portsRel fun _ _ => .same _

/-- A row of R171 stays in the operation, writes no operand of it and makes no retry past the last (R182). -/
structure FrpAdvance (r r' : Frp) : Prop where
  phase : r'.phase ≠ .idle
  port : r'.port = r.port
  len : r'.len = r.len
  buf : r'.buf = r.buf
  attempt : r.attempt ≤ maxRetries → r'.attempt ≤ maxRetries

/-- What a row of R171 before Done changes: the ports, in ways that depend on no instruction, and the FRP; FG's stack
and the DCM stay. -/
structure FrpRow (s t : State) : Prop where
  ports : SilentPorts s t
  fg : t.fg = s.fg
  dcm : t.dcm = s.dcm
  frp : FrpAdvance s.frp t.frp

section
variable {s t : State}

theorem FrpRow.of_phase {ph : FrpPhase} (hph : ph ≠ .idle) : FrpRow s (s.setFrpPhase ph) :=
  ⟨.of_ports_eq (fun _ _ => .same _) rfl rfl, rfl, rfl, ⟨hph, rfl, rfl, rfl, id⟩⟩

theorem FrpRow.of_setPort {p : Nat} {port port' : Port} {ph : FrpPhase} (hph : ph ≠ .idle)
    (hp : s.ports[p]? = some port) (h : PortChange s.params s.frp p port none port') :
    FrpRow s ((s.setPort p port').setFrpPhase ph) :=
  ⟨.of_ports_set (fun _ _ => .same _) rfl rfl hp h, rfl, rfl, ⟨hph, rfl, rfl, rfl, id⟩⟩

theorem FrpRow.wait (hph : s.frp.phase ≠ .idle) : FrpRow s s := FrpRow.of_phase hph

/-- A command frame has at most 259 bytes, so its length fits `LEN_W` (R100, R102). -/
theorem frpFrame_length_lt {bytes : List Byte} (h : frpFrame s = .ok bytes) : bytes.length < 2 ^ 16 := by
  unfold frpFrame at h
  split at h
  · cases h
    simp [rdFrame]
  · split at h
    · rename_i d hd
      cases h
      have hlen : d.length < 2 ^ 8 := by
        unfold frpPayload at hd
        split at hd
        · rw [readDmem_length _ _ _ _ hd]
          exact s.frp.len.isLt
        · cases hd
          simp
      simp only [wrFrame, List.length_cons]
      omega
    · cases h

theorem frpCompose_row (h : frpCompose s = .next t) : FrpRow s t := by
  unfold frpCompose at h
  split at h
  · cases h
  · rename_i bytes hbytes
    obtain ⟨port, hp, hpos, hcap, hidle, hb⟩ | ⟨st, hst, hb⟩ := beginTx_cases s.frp.port.toNat bytes s <;>
      rw [hb] at h
    · cases h
      exact .of_setPort (by simp) hp (.startTx none bytes hpos hcap (frpFrame_length_lt hbytes) hidle)
    · cases st with
      | success => exact absurd rfl hst
      | error | invalidParam => cases h; exact .of_phase (by simp)

theorem frpTransmitting_row (hph : s.frp.phase ≠ .idle) (h : frpTransmitting s = .next t) : FrpRow s t := by
  unfold frpTransmitting at h
  split at h
  · cases h
  · split at h <;> cases h
    · exact .wait hph
    · exact .of_phase (by simp)

theorem frpArmReceive_row (hph : s.frp.phase = .armReceive) (h : frpArmReceive s = .next t) : FrpRow s t := by
  unfold frpArmReceive at h
  obtain ⟨port, hp, -, hpos, -, hb⟩ | ⟨st, hst, hb⟩ :=
    beginRx_cases s.frp.port.toNat s.frp.dest (BitVec.ofNat 16 s.frp.responseCount) s <;> rw [hb] at h
  · cases h
    exact ⟨.of_ports_set (fun _ _ => .same _) rfl rfl hp (.startRx none _ _ hpos (.inr ⟨hph, rfl, rfl⟩)), rfl, rfl,
      ⟨by simp, rfl, rfl, rfl, id⟩⟩
  · cases st with
    | success => exact absurd rfl hst
    | error | invalidParam => cases h; exact .of_phase (by simp)

theorem frpStartupDelay_row (hph : s.frp.phase ≠ .idle) (h : frpStartupDelay s = .next t) : FrpRow s t := by
  unfold frpStartupDelay at h
  split at h
  · cases h
    exact .wait hph
  · split at h
    · cases h
    · split at h
      · cases h
      · cases h
        exact ⟨.of_ports_eq (fun _ _ => .same _) rfl rfl, rfl, rfl, ⟨by simp, rfl, rfl, rfl, id⟩⟩

theorem frpAwaitingResponse_row (hph : s.frp.phase ≠ .idle) (h : frpAwaitingResponse s = .next t) : FrpRow s t := by
  unfold frpAwaitingResponse at h
  split at h
  · cases h
  · split at h
    · cases h
      exact .of_phase (by simp)
    · split at h <;> cases h
      · exact .wait hph
      · obtain ⟨-, ha⟩ | ⟨port, hp, ha⟩ := abortRx_cases s.frp.port.toNat s <;> rw [ha]
        · exact .of_phase (by simp)
        · exact .of_setPort (by simp) hp (.abortRx none)

/-- One more retry, while fewer than `MAX_RETRIES` have been made, keeps to the bound (R182). -/
theorem attempt_succ_le {a : BitVec 2} (h : a < maxRetries) : a + 1 ≤ maxRetries := by
  unfold maxRetries at *
  bv_omega

theorem evaluateHeader_row (hph : s.frp.phase ≠ .idle) (b0 b1 : Byte) : FrpRow s (evaluateHeader b0 b1 s) := by
  obtain ⟨-, h⟩ | ⟨-, -, h⟩ | ⟨-, -, hattempt, h⟩ | ⟨-, -, -, h⟩ := evaluateHeader_cases b0 b1 s <;> rw [h]
  · exact .wait hph
  · exact .of_phase (by simp)
  · exact ⟨.of_ports_eq (fun _ _ => .same _) rfl rfl, rfl, rfl,
      ⟨by simp, rfl, rfl, rfl, fun _ => attempt_succ_le hattempt⟩⟩
  · exact .of_phase (by simp)

theorem frpEvaluate_row (hph : s.frp.phase ≠ .idle) (h : frpEvaluate s = .next t) : FrpRow s t := by
  unfold frpEvaluate at h
  split at h
  · cases h
  · split at h
    · rename_i bytes _ _ i rest hdecode
      have hi := decodeResponse_onChannel bytes i rest hdecode
      cases i with
      | rsp | rspErr => cases h; exact evaluateHeader_row hph _ _
      | _ => cases hi
    · cases h

/-- A turn inside READ_REG or WRITE_REG is a row of R171, or its return to the caller. -/
theorem frpStep_cases {callers : List Frame} (h : frpStep callers s = .next t) :
    (∃ st, s.frp.phase = .done st ∧ deliver callers st .none (s.setFrpPhase .idle) = .next t) ∨
    (s.frp.phase.running = true ∧ FrpRow s t) := by
  unfold frpStep at h
  cases hph : s.frp.phase with rw [hph] at h
  | idle => cases h
  | compose => exact .inr ⟨rfl, frpCompose_row h⟩
  | transmitting => exact .inr ⟨rfl, frpTransmitting_row (by simp [hph]) h⟩
  | armReceive => exact .inr ⟨rfl, frpArmReceive_row hph h⟩
  | startupDelay => exact .inr ⟨rfl, frpStartupDelay_row (by simp [hph]) h⟩
  | awaitingResponse => exact .inr ⟨rfl, frpAwaitingResponse_row (by simp [hph]) h⟩
  | evaluate => exact .inr ⟨rfl, frpEvaluate_row (by simp [hph]) h⟩
  | done st => exact .inl ⟨st, rfl, h⟩

/-! ### FG's turn -/

theorem dcmStep_sequencerOnly {k : Pass} {callers : List Frame} (h : dcmStep k callers s = .next t) :
    SequencerOnly s t := by
  unfold dcmStep at h
  cases hph : s.dcm.phase with rw [hph] at h
  | idle => cases h
  | readCurrent => cases h; exact issueRead_sequencerOnly _ _ _ _ _ (drawDcmBuf s)
  | decide => cases h; exact SequencerOnly.refl s
  | writeNew => cases h; exact issueWrite_sequencerOnly _ _ _ _ _ s
  | settle =>
    change dcmSettle k callers s = .next t at h
    unfold dcmSettle at h
    split at h <;> cases h <;> exact SequencerOnly.refl s
  | done st => exact deliver_sequencerOnly callers st _ (s.setDcmPhase .idle) t h

/-- FG idle waits for a record, or runs the one at the head of the command stream. -/
theorem fetchHost_cases (h : fetchHost s = .next t) :
    t = s ∨ ∃ i rest, decodeHost s.params.addrSize s.commands = .ok (i, rest) ∧
      exec i { s with commands := rest } = .next t := by
  unfold fetchHost at h
  split at h
  · cases h
    exact .inl rfl
  · rename_i sel r hcommands
    split at h
    · rename_i i rest hdecode
      exact .inr ⟨i, rest, by rw [hcommands, hdecode], h⟩
    · cases h

/-- FG's turn changes the ports as the host record it runs does, or in ways that depend on no instruction. -/
theorem fgTurn_ports (h : fgTurn s = .next t) :
    (s.fg = [] ∧ ∃ i rest, decodeHost s.params.addrSize s.commands = .ok (i, rest) ∧ InstrPorts i s t) ∨
    SilentPorts s t := by
  cases hfg : s.fg with
  | nil =>
    rw [fgTurn_idle hfg] at h
    obtain rfl | ⟨i, rest, hdecode, hexec⟩ := fetchHost_cases h
    · exact .inr (SequencerOnly.refl t).silentPorts
    · have hports := (exec_next hexec).instrWrites.ports
      exact .inl ⟨rfl, i, rest, hdecode, ⟨hports.params, hports.length, hports.rel⟩⟩
  | cons f callers =>
    unfold fgTurn at h
    rw [hfg] at h
    refine .inr ?_
    cases f with
    | delay n t0 =>
      change delayStep n t0 callers s = .next t at h
      unfold delayStep at h
      split at h
      · exact (deliver_sequencerOnly callers _ _ s t h).silentPorts
      · cases h
        exact (SequencerOnly.refl s).silentPorts
    | frp =>
      obtain ⟨st, -, hdeliver⟩ | ⟨-, hrow⟩ := frpStep_cases h
      · exact SequencerOnly.silentPorts (s := s) (deliver_sequencerOnly callers st _ (s.setFrpPhase .idle) t hdeliver)
      · exact hrow.ports
    | dcm k => exact (dcmStep_sequencerOnly h).silentPorts
    | ensure | restore | settings => cases h

/-! ### The environment's moves -/

/-- What the peripheral, the device, the link and the host's own moves leave alone: the block's part of every port,
the sequencers and FG's stack. -/
structure EnvOnly (s t : State) : Prop where
  ports : PortsRel (fun _ => OutsideOnly) s t
  fg : t.fg = s.fg
  frp : t.frp = s.frp
  dcm : t.dcm = s.dcm

theorem EnvOnly.of_ports_eq (hparams : t.params = s.params) (hports : t.ports = s.ports) (hfg : t.fg = s.fg)
    (hfrp : t.frp = s.frp) (hdcm : t.dcm = s.dcm) : EnvOnly s t :=
  ⟨.of_ports_eq (fun _ => OutsideOnly.refl) hparams hports, hfg, hfrp, hdcm⟩

theorem EnvOnly.refl (s : State) : EnvOnly s s := .of_ports_eq rfl rfl rfl rfl rfl

theorem EnvOnly.after {u : State} (h' : EnvOnly t u) (h : EnvOnly s t) : EnvOnly s u :=
  ⟨h.ports.trans (fun _ _ _ _ hab hbc => hab.trans hbc) h'.ports, h'.fg.trans h.fg, h'.frp.trans h.frp,
    h'.dcm.trans h.dcm⟩

theorem EnvOnly.of_setPort {p : Nat} {port port' : Port} (hp : s.ports[p]? = some port) (h : OutsideOnly port port') :
    EnvOnly s (s.setPort p port') :=
  ⟨.of_ports_set (fun _ => OutsideOnly.refl) rfl rfl hp h, rfl, rfl, rfl⟩

theorem envStep_envOnly (p : Nat) {f : Port → Port} (hf : ∀ port, OutsideOnly port (f port)) :
    EnvOnly s (envStep p f s) := by
  obtain h | ⟨port, hp, h⟩ := envStep_cases p f s <;> rw [h]
  · exact EnvOnly.refl s
  · exact .of_setPort hp (hf port)

theorem hostStore_envOnly {a : Nat} {b : Byte} (h : hostStore a b s = .next t) : EnvOnly s t := by
  unfold hostStore at h
  split at h
  · rename_i u hu
    cases h
    obtain ⟨-, rfl⟩ | ⟨-, rfl⟩ := writeByte_ok hu <;> exact .of_ports_eq rfl rfl rfl rfl rfl
  · cases h

theorem configure_envOnly (p : Nat) (line : LineConfig) : EnvOnly s (configure p line s) := by
  unfold configure
  split
  · split
    · rename_i port _ hp _
      exact .of_setPort hp (OutsideOnly.refl port)
    · exact EnvOnly.refl s
  · exact EnvOnly.refl s

/-- A command frame changes the device of its port. -/
theorem exec_frame_envOnly {i : Instr} (hi : i.channel = .frame) (h : exec i s = .next t) : EnvOnly s t := by
  cases exec_next h with
  | answered _ hp d => exact ⟨.of_ports_set (fun _ => OutsideOnly.refl) rfl rfl hp (OutsideOnly.refl _), rfl, rfl, rfl⟩
  | returned hi' | transport hi' | issueRead hi' | issueWrite hi' | issuePass hi' | notPending hi' | header hi' =>
    cases hi.symm.trans hi'
  | arm hi' =>
    simp only [List.mem_cons, List.not_mem_nil, or_false] at hi'
    obtain rfl | rfl | rfl := hi' <;> cases hi
  | delay | stored | tick => cases hi

theorem runFrame_envOnly {p : Nat} {cmd : List Byte} {fault : Option (Fin 9)} (h : runFrame p cmd fault s = .next t) :
    EnvOnly s t := by
  unfold runFrame at h
  split at h
  · cases h
    exact EnvOnly.refl s
  · rename_i port hp
    split at h
    · cases h
      exact .of_setPort hp (OutsideOnly.refl port)
    · split at h
      · rename_i i rest hdecode
        have hexec := exec_frame_envOnly (decodeFrame_onChannel cmd i rest hdecode) h
        exact hexec.after (.of_ports_eq rfl rfl rfl rfl rfl)
      · cases h
        exact ⟨.of_ports_set (fun _ => OutsideOnly.refl) rfl rfl hp (OutsideOnly.refl port), rfl, rfl, rfl⟩

theorem devTake_envOnly {p : Nat} {fault : Option (Fin 9)} (h : devTake p fault s = .next t) : EnvOnly s t := by
  unfold devTake at h
  split at h
  · cases h
    exact EnvOnly.refl s
  · rename_i port hp
    split at h
    · cases h
      exact EnvOnly.refl s
    · split at h
      · cases h
        exact .of_setPort hp (OutsideOnly.refl port)
      · split at h
        · exact (runFrame_envOnly h).after (.of_setPort hp (OutsideOnly.refl port))
        · cases h
          exact .of_setPort hp (OutsideOnly.refl port)

/-- A move is FG's turn, an event, the reset of the block, or one of the environment's. -/
theorem runMove_cases {m : Move} (h : runMove m s = .next t) :
    (m = .fg ∧ fgTurn s = .next t) ∨ (∃ record, m = .event record ∧ fireEvent record s = .next t) ∨
    (m = .resetBlock ∧ t = s.resetBlock) ∨ EnvOnly s t := by
  cases m with
  | fg => exact .inl ⟨rfl, h⟩
  | event record => exact .inr (.inl ⟨record, rfl, h⟩)
  | resetBlock => cases h; exact .inr (.inr (.inl ⟨rfl, rfl⟩))
  | txLoad p => cases h; exact .inr (.inr (.inr (envStep_envOnly p Port.txLoad_outsideOnly)))
  | txShiftOut p => cases h; exact .inr (.inr (.inr (envStep_envOnly p Port.txShiftOut_outsideOnly)))
  | rxArrive p => cases h; exact .inr (.inr (.inr (envStep_envOnly p fun port => port.rxArrive_outsideOnly _ _ _ _)))
  | devTake => exact .inr (.inr (.inr (devTake_envOnly h)))
  | devSend p => cases h; exact .inr (.inr (.inr (envStep_envOnly p fun port => port.devSend_outsideOnly _ _ _)))
  | hostStore => exact .inr (.inr (.inr (hostStore_envOnly h)))
  | configure => cases h; exact .inr (.inr (.inr (configure_envOnly _ _)))

theorem fireEvent_cases {record : List Byte} (h : fireEvent record s = .next t) :
    ∃ i tail, decodeEvent record = .ok (i, tail) ∧ exec i s = .next t := by
  unfold fireEvent at h
  split at h
  · exact ⟨_, _, ‹_›, h⟩
  · cases h

/-! ### A step -/

/-- A step is FG's turn, an event, the reset of the block or an environment move, from the state with the move
consumed. -/
inductive StepNext (s t : State) : Prop
  | fgTurn (ms : List Move) (hmoves : s.moves = [] ∨ s.moves = .fg :: ms)
      (h : fgTurn { s with moves := ms } = .next t)
  | event (record : List Byte) (ms : List Move) (hmoves : s.moves = .event record :: ms) (i : Instr) (tail : List Byte)
      (hdecode : decodeEvent record = .ok (i, tail)) (h : exec i { s with moves := ms } = .next t)
  | reset (ms : List Move) (hmoves : s.moves = .resetBlock :: ms) (h : t = State.resetBlock { s with moves := ms })
  | env (m : Move) (ms : List Move) (hmoves : s.moves = m :: ms) (h : EnvOnly { s with moves := ms } t)

theorem step_next (h : step s = .next t) : StepNext s t := by
  unfold step nextStep at h
  split at h
  · rename_i hmoves
    refine .fgTurn [] (.inl hmoves) ?_
    rwa [← hmoves]
  · rename_i m ms hmoves
    obtain ⟨rfl, hturn⟩ | ⟨record, rfl, hfire⟩ | ⟨rfl, hreset⟩ | henv := runMove_cases h
    · exact .fgTurn ms (.inr hmoves) hturn
    · obtain ⟨i, tail, hdecode, hexec⟩ := fireEvent_cases hfire
      exact .event record ms hmoves i tail hdecode hexec
    · exact .reset ms hmoves hreset
    · exact .env m ms hmoves henv

/-- What a step can do to the ports, with the instruction it runs. -/
inductive StepPorts (s t : State) : Prop
  | host (hmoves : s.moves = [] ∨ ∃ ms, s.moves = .fg :: ms) (hfg : s.fg = []) (i : Instr) (rest : List Byte)
      (hdecode : decodeHost s.params.addrSize s.commands = .ok (i, rest)) (h : InstrPorts i s t)
  | event (record : List Byte) (ms : List Move) (hmoves : s.moves = .event record :: ms) (i : Instr) (tail : List Byte)
      (hdecode : decodeEvent record = .ok (i, tail)) (h : InstrPorts i s t)
  | silent (h : SilentPorts s t)
  | reset (ms : List Move) (hmoves : s.moves = .resetBlock :: ms) (hparams : t.params = s.params)
      (hports : t.ports = s.ports.map (Port.resetBlock s.params))

theorem step_ports (h : step s = .next t) : StepPorts s t := by
  obtain ⟨ms, hmoves, h⟩ | ⟨record, ms, hmoves, i, tail, hdecode, h⟩ | ⟨ms, hmoves, h⟩ | ⟨-, ms, -, h⟩ := step_next h
  · obtain ⟨hfg, i, rest, hdecode, hp⟩ | hp := fgTurn_ports h
    · exact .host (hmoves.imp_right fun hms => ⟨ms, hms⟩) hfg i rest hdecode ⟨hp.params, hp.length, hp.rel⟩
    · exact .silent ⟨hp.params, hp.length, hp.rel⟩
  · have hp := (exec_next h).instrWrites.ports
    exact .event record ms hmoves i tail hdecode ⟨hp.params, hp.length, hp.rel⟩
  · subst h
    exact .reset ms hmoves rfl rfl
  · have hp := h.ports.mono fun p port port' hout => PortChange.outside (c := s.params) (r := s.frp) (p := p) port' hout
    exact .silent ⟨hp.params, hp.length, hp.rel⟩

end

end Sys2Proof.Machine
end

section
/-! SUPPORT. The invariants of one port, change by change: the order on the wire (R58), the end of a transmit (R152),
and the transport invariants (R54 to R56). -/

namespace Sys2Proof.Machine

/-! ### The fields a hand-over and a completion write -/

section
variable (port : Port) (b : Byte)

@[simp] theorem Port.handOver_buf : (port.handOver b).tx.buf = port.tx.buf := by
  unfold Port.handOver; split <;> rfl

@[simp] theorem Port.handOver_len : (port.handOver b).tx.len = port.tx.len := by
  unfold Port.handOver; split <;> rfl

@[simp] theorem Port.handOver_cur : (port.handOver b).tx.cur = port.tx.cur + 1 := by
  unfold Port.handOver; split <;> rfl

@[simp] theorem Port.handOver_status : (port.handOver b).tx.status = port.tx.status := by
  unfold Port.handOver; split <;> rfl

@[simp] theorem Port.handOver_wireOut : (port.handOver b).wireOut = port.wireOut ++ [b] := by
  unfold Port.handOver; split <;> rfl

@[simp] theorem Port.completeTx_tx : port.completeTx.tx = { port.tx with tcie := false, status := .idle } := rfl

end

/-! ### The order on the wire -/

/-- The bytes handed over so far end the outgoing stream (R58). -/
def Port.WireOrder (port : Port) : Prop := port.tx.buf.take port.tx.cur.toNat <:+ port.wireOut

/-- With the cursor at 0 no byte has been handed over. -/
theorem Port.wireOrder_of_cur_zero {port : Port} (h : port.tx.cur = 0) : port.WireOrder := by
  simp [Port.WireOrder, h]

theorem Port.WireOrder.of_eq {port port' : Port} (h : port.WireOrder) (hbuf : port'.tx.buf = port.tx.buf)
    (hcur : port'.tx.cur = port.tx.cur) (hwire : port'.wireOut = port.wireOut) : port'.WireOrder := by
  unfold Port.WireOrder
  rwa [hbuf, hcur, hwire]

/-- Handing over the byte at the cursor appends it to both sides. -/
theorem Port.WireOrder.handOver {port : Port} {b : Byte} (h : port.WireOrder)
    (hb : port.tx.buf[port.tx.cur.toNat]? = some b) : (port.handOver b).WireOrder := by
  obtain hwrap | hcur : port.tx.cur + 1 = 0 ∨ (port.tx.cur + 1).toNat = port.tx.cur.toNat + 1 := by
    rw [← BitVec.toNat_inj]
    bv_omega
  · exact wireOrder_of_cur_zero ((port.handOver_cur b).trans hwrap)
  · have htake : port.tx.buf.take (port.tx.cur.toNat + 1) = port.tx.buf.take port.tx.cur.toNat ++ [b] := by
      simp [List.take_add_one, hb]
    unfold Port.WireOrder
    rw [handOver_buf, handOver_cur, handOver_wireOut, hcur, htake]
    obtain ⟨before, hbefore⟩ := h
    exact ⟨before, by rw [← hbefore, List.append_assoc]⟩

theorem PortChange.keeps_wireOrder {c : Params} {r : Frp} {p : Nat} {port port' : Port} {l : Option Instr}
    (h : PortChange c r p port l port') (hw : port.WireOrder) : port'.WireOrder := by
  cases h with
  | handOver q b _ hb => exact hw.handOver hb
  | bringUp | startTx => exact Port.wireOrder_of_cur_zero rfl
  | same | startRx | abortRx | completeTx | dropRx | device => exact hw.of_eq rfl rfl rfl
  | countRx => exact hw.of_eq (by simp) (by simp) (by simp)
  | outside _ hout =>
    obtain ⟨htx, -, -, -, -, hwire, -⟩ := hout
    exact hw.of_eq (by rw [htx]) (by rw [htx]) hwire

/-- What every change of a port keeps, and the reset of the block, every step keeps on all ports. -/
theorem StepPorts.forall_mem {P Q : Port → Prop} {s t : State} (h : StepPorts s t)
    (hchange : ∀ p port l port', PortChange s.params s.frp p port l port' → P port → Q port')
    (hreset : ∀ port, P port → Q (port.resetBlock s.params)) (hs : ∀ port ∈ s.ports, P port) :
    ∀ port ∈ t.ports, Q port := by
  cases h with
  | host _ _ i _ _ h | event _ _ _ i _ _ h => exact h.forall_mem (fun p port port' => hchange p port (some i) port') hs
  | silent h => exact h.forall_mem (fun p port port' => hchange p port none port') hs
  | reset _ _ _ hports =>
    rw [hports]
    intro port' hmem
    obtain ⟨port, hport, rfl⟩ := List.mem_map.mp hmem
    exact hreset port (hs port hport)

/-- Settles O57: a hand-over appends to both sides, and what restarts a transmit sets the cursor to 0. -/
theorem stepKeepsWireOrder : Obligations.StepKeepsWireOrder := by
  intro s t hs h
  exact (step_ports h).forall_mem (P := Port.WireOrder) (Q := Port.WireOrder)
    (fun _ _ _ _ hchange => hchange.keeps_wireOrder) (fun _ _ => Port.wireOrder_of_cur_zero rfl) hs

/-! ### The end of a transmit -/

/-- Only the completion arm and a first PORT_INIT take a transmit from Busy to Idle. -/
theorem PortChange.ends_transmit {c : Params} {r : Frp} {p : Nat} {port port' : Port} {l : Option Instr}
    (h : PortChange c r p port l port') (hbusy : port.tx.status = .busy) (hidle : port'.tx.status = .idle) :
    (∃ q, l = some (.irqTc q) ∧ q.toNat = p ∧ port.pendingTc = true) ∨
    (∃ q, l = some (.portInit q) ∧ q.toNat = p ∧ port.initDone = false ∧ port.txBegun = false ∧
      port.rxBegun = false) := by
  have hstays : port'.tx.status ≠ port.tx.status := by simp [hbusy, hidle]
  cases h with
  | completeTx q hq hpending => exact .inl ⟨q, rfl, hq, hpending⟩
  | bringUp q hq hinit htx hrx => exact .inr ⟨q, rfl, hq, hinit, htx, hrx⟩
  | startTx => cases hidle
  | outside _ hout => exact absurd (congrArg Transmit.status hout.1) hstays
  | same | startRx | abortRx | dropRx | device | handOver | countRx => exact absurd (by simp) hstays

/-- A port whose transmit is Busy has had a BEGIN_TX, where the transport invariants hold (R56). -/
theorem not_transportSound_of_busy {s : State} {p : Nat} {port : Port} (hp : s.ports[p]? = some port)
    (hbusy : port.tx.status = .busy) (hbegun : port.txBegun = false) : ¬ s.transportSound := by
  intro hs
  obtain ⟨⟨-, -, -, -, hpos, -⟩, ⟨-, hzero⟩, -⟩ := hs port (List.mem_of_getElem? hp)
  have hlen : (0 : Half) < port.tx.len := hpos hbusy
  rw [hzero hbegun] at hlen
  exact absurd hlen (by decide)

/-- Settles O59, along what a step can run: a host record ends a transmit only as PORT_INIT, an event only as IRQ_TC. -/
theorem transmitEndsByCompletion : Obligations.TransmitEndsByCompletion := by
  intro s t p port port' h hp ht hbusy hidle
  cases step_ports h with
  | host hmoves hfg i rest hdecode hports =>
    obtain ⟨q, hi, -⟩ | ⟨q, hi, hq, hinit, htx, hrx⟩ := (hports.rel p port port' hp ht).ends_transmit hbusy hidle
    · cases hi
      cases decodeHost_onChannel _ _ _ _ hdecode
    · cases hi
      exact .inr (.inr ⟨not_transportSound_of_busy hp hbusy htx, hmoves, hfg, hinit, htx, hrx, q, rest, hdecode, hq⟩)
  | event record ms hmoves i tail hdecode hports =>
    obtain ⟨q, hi, hq, hpending⟩ | ⟨q, hi, -⟩ := (hports.rel p port port' hp ht).ends_transmit hbusy hidle
    · cases hi
      obtain ⟨htcie, htc⟩ : port.tx.tcie = true ∧ port.periph.tc = true := by
        simpa [Port.pendingTc] using hpending
      exact .inl ⟨record, ms, q, tail, hmoves, hdecode, hq, htcie, htc⟩
    · cases hi
      cases decodeEvent_onChannel _ _ _ hdecode
  | silent hports =>
    obtain ⟨q, hi, -⟩ | ⟨q, hi, -⟩ := (hports.rel p port port' hp ht).ends_transmit hbusy hidle <;> cases hi
  | reset ms hmoves => exact .inr (.inl ⟨ms, hmoves⟩)

end Sys2Proof.Machine
end

section
/-! SUPPORT. Soundness: every change of a port keeps the transport invariants (R54 to R56), and every way to call, wait
and return keeps FG's stack in step with the sequencers (R32, R170, R171, R190). -/

namespace Sys2Proof.Machine

/-! ### The transport invariants -/

/-- The transport invariants of one port, for a buffer of `cap` bytes. -/
abbrev Port.transportSound (cap : Nat) (port : Port) : Prop :=
  port.tx.sound cap ∧ port.lengthSound ∧ port.rx.sound

theorem Transmit.reset_sound {cap : Nat} {buf : List Byte} (h : buf.length = cap) : (Transmit.reset buf).sound cap := by
  simp [Transmit.sound, Transmit.reset, h]

theorem Receive.reset_sound : Receive.reset.sound := by decide

/-- In a sound transmit half the two enables say which part of a transfer is running (R54). -/
theorem Transmit.sound.enables {cap : Nat} {x : Transmit} (h : x.sound cap) :
    (x.txeie = true → x.tcie = false ∧ x.status = .busy) ∧ (x.tcie = true → x.txeie = false ∧ x.status = .busy) := by
  obtain ⟨hbusy, hidle, -⟩ := h
  cases hs : x.status with
  | idle =>
    obtain ⟨htx, htc⟩ := hidle.mp hs
    simp [htx, htc]
  | busy =>
    have hne := hbusy.mp hs
    exact ⟨fun htx => ⟨by simpa [htx] using hne, rfl⟩, fun htc => ⟨by simpa [htc] using hne, rfl⟩⟩

section
variable {cap : Nat} {port : Port}

theorem Port.startTx_transportSound {bytes : List Byte} (h : port.transportSound cap) (hpos : bytes.length ≠ 0)
    (hcap : bytes.length ≤ cap) (hlen : bytes.length < 2 ^ 16) (hidle : port.tx.status = .idle) :
    (port.startTx bytes).transportSound cap := by
  obtain ⟨⟨-, hiff, -, -, -, -, -, hbuf⟩, -, hrx⟩ := h
  obtain ⟨-, htcie⟩ := hiff.mp hidle
  have hlt : (0 : Half) < BitVec.ofNat 16 bytes.length := by bv_omega
  have hone : (1 : Half) ≤ BitVec.ofNat 16 bytes.length := by bv_omega
  have hnat : (BitVec.ofNat 16 bytes.length).toNat = bytes.length := by simp; omega
  refine ⟨?_, ⟨fun _ => hone, fun h => absurd h (by simp)⟩, hrx⟩
  simp only [Port.startTx, Transmit.sound, htcie, hnat]
  refine ⟨by simp, by simp, fun _ => hlt, by simp, fun _ => hlt, by simp, hcap, ?_⟩
  simp only [List.length_append, List.length_drop, hbuf]
  omega

theorem Port.handOver_transportSound {b : Byte} (h : port.transportSound cap) (hpending : port.pendingTxe = true) :
    (port.handOver b).transportSound cap := by
  obtain ⟨htx, hlength, hrx⟩ := h
  obtain ⟨htxeie, -⟩ : port.tx.txeie = true ∧ port.periph.txe = true := by simpa [Port.pendingTxe] using hpending
  obtain ⟨htcie, hbusy⟩ := htx.enables.1 htxeie
  obtain ⟨-, -, hcur, -, hpos, -, hcap, hbuf⟩ := htx
  have hlt := hcur htxeie
  refine ⟨?_, by simpa [Port.lengthSound] using hlength, by simpa using hrx⟩
  unfold Port.handOver
  split
  · rename_i hlast
    exact ⟨by simp [periphWriteData, hbusy], by simp [periphWriteData, hbusy], by simp, fun _ => hlast, hpos,
      hlast ▸ BitVec.le_refl _, hcap, hbuf⟩
  · rename_i hnot
    have hnext : port.tx.cur + 1 < port.tx.len := by bv_omega
    exact ⟨by simp [periphWriteData, hbusy, htxeie, htcie], by simp [periphWriteData, hbusy, htcie, htxeie],
      fun _ => hnext, by simp [periphWriteData, htcie], hpos, BitVec.le_of_lt hnext, hcap, hbuf⟩

theorem Port.completeTx_transportSound (h : port.transportSound cap) (hpending : port.pendingTc = true) :
    port.completeTx.transportSound cap := by
  obtain ⟨htx, hlength, hrx⟩ := h
  obtain ⟨htcie, -⟩ : port.tx.tcie = true ∧ port.periph.tc = true := by simpa [Port.pendingTc] using hpending
  obtain ⟨htxeie, -⟩ := htx.enables.2 htcie
  obtain ⟨-, -, -, -, -, hle, hcap, hbuf⟩ := htx
  exact ⟨by simp [Transmit.sound, htxeie, hle, hcap, hbuf], hlength, hrx⟩

/-- A destination in SCR has room for the response that is bound to it (R71, R172, R178). -/
theorem RxBinding.scr_room {r : Frp} {dest : Dest} {n : Half} {k : Nat} (h : RxBinding r dest n) (hr : r.sound k)
    (hscr : dest.space = .scr) : dest.addr + n.toNat ≤ 5 := by
  obtain hdmem | ⟨hphase, rfl, rfl⟩ := h
  · cases hdmem.symm.trans hscr
  · obtain ⟨hrunning, -⟩ := hr
    obtain ⟨-, -, hlen⟩ := hrunning (by rw [hphase]; rfl)
    unfold Frp.dest Frp.responseCount at *
    cases hkind : r.kind with
    | write => simp
    | read =>
      cases hbuf : r.buf with
      | dmem a => simp [hkind, hbuf] at hscr
      | internal => simp [hlen hbuf]

theorem Port.startRx_transportSound {dest : Dest} {n : Half} (h : port.transportSound cap) (hpos : n ≠ 0)
    (hroom : dest.space = .scr → dest.addr + n.toNat ≤ 5) : (port.startRx dest n).transportSound cap := by
  obtain ⟨htx, hlength, -⟩ := h
  have hlt : (0 : Half) < n := by bv_omega
  exact ⟨htx, hlength, by simp [Port.startRx], fun _ => hlt, BitVec.le_of_lt hlt, hroom⟩

theorem Port.dropRx_transportSound (h : port.transportSound cap) : port.dropRx.transportSound cap := by
  obtain ⟨htx, hlength, -, -, hle, hroom⟩ := h
  exact ⟨htx, hlength, by simp [Port.dropRx], by simp [Port.dropRx], hle, hroom⟩

theorem Port.countRx_transportSound (h : port.transportSound cap) (hpending : port.pendingRxne = true) :
    port.countRx.transportSound cap := by
  obtain ⟨htx, hlength, hbusy, hcur, hle, hroom⟩ := h
  obtain ⟨hrxneie, -⟩ : port.rx.rxneie = true ∧ port.periph.rxne = true := by simpa [Port.pendingRxne] using hpending
  have hlt := hcur hrxneie
  refine ⟨by simpa using htx, by simpa [Port.lengthSound] using hlength, ?_⟩
  unfold Port.countRx
  split
  · rename_i hlast
    exact ⟨by simp, by simp, hlast ▸ BitVec.le_refl _, hroom⟩
  · rename_i hnot
    have hnext : port.rx.cur + 1 < port.rx.len := by bv_omega
    exact ⟨hbusy, fun _ => hnext, BitVec.le_of_lt hnext, hroom⟩

/-- Every change of a port keeps its transport invariants, where the FRP's registers are sound. -/
theorem PortChange.keeps_transportSound {c : Params} {r : Frp} {p n : Nat} {port' : Port} {l : Option Instr}
    (h : PortChange c r p port l port') (hr : r.sound n) (hs : port.transportSound c.txCap) :
    port'.transportSound c.txCap := by
  cases h with
  | same | device => exact hs
  | bringUp q hq hinit htx hrx =>
    obtain ⟨⟨-, -, -, -, -, -, -, hbuf⟩, -, -⟩ := hs
    exact ⟨Transmit.reset_sound hbuf, ⟨fun h => absurd (htx.symm.trans h) (by simp), fun _ => rfl⟩, Receive.reset_sound⟩
  | startTx _ bytes hpos hcap hlen hidle => exact Port.startTx_transportSound hs hpos hcap hlen hidle
  | startRx _ dest k hpos hdest => exact Port.startRx_transportSound hs hpos (hdest.scr_room hr)
  | abortRx =>
    obtain ⟨htx, hlength, -⟩ := hs
    exact ⟨htx, hlength, Receive.reset_sound⟩
  | handOver _ b hpending => exact Port.handOver_transportSound hs hpending
  | completeTx _ _ hpending => exact Port.completeTx_transportSound hs hpending
  | dropRx => exact Port.dropRx_transportSound hs
  | countRx _ hpending => exact Port.countRx_transportSound hs hpending
  | outside _ hout =>
    obtain ⟨htx, hrx, -, hbegun, -⟩ := hout
    simpa only [Port.transportSound, Port.lengthSound, htx, hrx, hbegun] using hs

theorem Port.resetBlock_transportSound (c : Params) : (port.resetBlock c).transportSound c.txCap :=
  ⟨Transmit.reset_sound List.length_replicate, ⟨(nomatch ·), fun _ => rfl⟩, Receive.reset_sound⟩

end

theorem StepPorts.params_eq {s t : State} (h : StepPorts s t) : t.params = s.params := by
  cases h with
  | host _ _ _ _ _ h | event _ _ _ _ _ _ h => exact h.params
  | silent h => exact h.params
  | reset _ _ hparams => exact hparams

theorem step_keeps_transportSound {s t : State} (hs : s.sound) (h : step s = .next t) : t.transportSound := by
  obtain ⟨htransport, -, hfrp⟩ := hs
  have hports := step_ports h
  unfold State.transportSound
  rw [hports.params_eq]
  exact hports.forall_mem (P := Port.transportSound s.params.txCap) (Q := Port.transportSound s.params.txCap)
    (fun _ _ _ _ hchange => hchange.keeps_transportSound hfrp) (fun _ _ => Port.resetBlock_transportSound _) htransport

end Sys2Proof.Machine
end

section
/-! SUPPORT. FG's stack stays a path of the call graph of R170 that the phases of the sequencers fit: for each way to
issue, to wait and to return. -/

namespace Sys2Proof.Machine

/-! ### Stacks a call can return to -/

/-- The stacks below a call that returns while the FRP is Idle, with the DCM's phase: nothing, a DCM pass that waits for
this call, or a sequence above Idle sequencers (R170). -/
def returnOk (d : DcmPhase) : List Frame → Bool
  | [] => decide (d = .idle)
  | .dcm k :: rest => (passCallsFrp k d || decide (k = .setMode ∧ d = .settle)) && callersOk k rest
  | .ensure _ :: rest => decide (d = .idle) && settingsOrNone .ensuring rest
  | .restore :: rest => decide (d = .idle) && settingsOrNone .restoring rest
  | .settings _ _ _ _ _ :: rest => decide (d = .idle) && rest.isEmpty
  | .frp :: _ => false
  | .delay _ _ :: _ => false

theorem returnOk_of_settingsOrNone {stage : SettingsStage} {callers : List Frame}
    (h : settingsOrNone stage callers = true) : returnOk .idle callers = true := by
  unfold settingsOrNone at h
  split at h
  · rfl
  · simp_all [returnOk]
  · cases h

/-- A READ_REG or WRITE_REG returns to a pass that waits for it, or to a SETTINGS_WRITE in its write. -/
theorem returnOk_of_frpCallersOk {callers : List Frame} {d : DcmPhase} (h : frpCallersOk callers d = true) :
    returnOk d callers = true := by
  unfold frpCallersOk at h
  split at h
  · simp_all [returnOk]
  · obtain ⟨rfl, hsettings⟩ : d = .idle ∧ settingsOrNone .writing callers = true := by simpa using h
    exact returnOk_of_settingsOrNone hsettings

theorem returnOk_of_delayCallersOk {callers : List Frame} {d : DcmPhase} (h : delayCallersOk callers d = true) :
    returnOk d callers = true := by
  unfold delayCallersOk at h
  split at h
  · exact h
  · rename_i k rest
    obtain ⟨⟨rfl, rfl⟩, hrest⟩ : (k = .setMode ∧ d = .settle) ∧ callersOk k rest = true := by simpa using h
    exact hrest
  · cases h

/-- A DCM pass returns, with the DCM Idle, to the sequence that called it. -/
theorem returnOk_of_callersOk {k : Pass} {callers : List Frame} (h : callersOk k callers = true) :
    returnOk .idle callers = true := by
  unfold callersOk at h
  split at h
  all_goals simp_all [returnOk]

theorem callersOk_of_returnOk_dcm {k : Pass} {callers : List Frame} {d : DcmPhase}
    (h : returnOk d (.dcm k :: callers) = true) : callersOk k callers = true := by
  simp only [returnOk, Bool.and_eq_true] at h
  exact h.2

theorem returnOk_ensure {stage : EnsureStage} {callers : List Frame} {d : DcmPhase} :
    returnOk d (.ensure stage :: callers) = true ↔ d = .idle ∧ settingsOrNone .ensuring callers = true := by
  simp [returnOk]

theorem returnOk_settings {stage : SettingsStage} {page addr len : Byte} {payload : Nat} {callers : List Frame}
    {d : DcmPhase} :
    returnOk d (.settings stage page addr len payload :: callers) = true ↔ d = .idle ∧ callers = [] := by
  simp [returnOk]

/-- A sequence that ends returns to what is below it. -/
theorem returnOk_below {f : Frame} {callers : List Frame} {d : DcmPhase} (h : returnOk d (f :: callers) = true)
    (hf : ∀ k, f ≠ .dcm k) : returnOk d callers = true := by
  cases f with
  | dcm k => exact absurd rfl (hf k)
  | delay | frp => cases h
  | ensure =>
    obtain ⟨rfl, hbelow⟩ := returnOk_ensure.mp h
    exact returnOk_of_settingsOrNone hbelow
  | restore =>
    obtain ⟨rfl, hbelow⟩ : d = .idle ∧ settingsOrNone .restoring callers = true := by simpa [returnOk] using h
    exact returnOk_of_settingsOrNone hbelow
  | settings =>
    obtain ⟨rfl, rfl⟩ := returnOk_settings.mp h
    rfl

/-! ### Issuing -/

section
variable {s t : State}

theorem sequencerSound_congr (hs : s.sequencerSound) (hfg : t.fg = s.fg) (hfrp : t.frp = s.frp) (hdcm : t.dcm = s.dcm)
    (hlength : t.ports.length = s.ports.length) : t.sequencerSound := by
  have hn : t.nPorts = s.nPorts := hlength
  unfold State.sequencerSound
  rwa [hfg, hfrp, hdcm, hn]

/-- FRP registers that do not run are sound once the retries made keep to the bound. -/
theorem Frp.sound_of_not_running {r : Frp} {n : Nat} (h : r.phase.running = false) (hattempt : r.attempt ≤ maxRetries) :
    r.sound n := ⟨fun hrun => absurd hrun (by simp [h]), hattempt⟩

theorem Frp.sound_of_idle {r : Frp} {n : Nat} (h : r.phase = .idle) (hattempt : r.attempt ≤ maxRetries) : r.sound n :=
  Frp.sound_of_not_running (by rw [h]; rfl) hattempt

theorem Frp.issued_sound {r : Frp} {kind : FrpKind} {p addr len : Byte} {buf : FrpBuf}
    (hvalid : frpValid s p len buf = true) (hbuf : buf = .internal → len = 1) :
    (r.issued kind p addr len buf).sound s.nPorts := by
  simp only [frpValid, State.hasPort, Bool.and_eq_true, decide_eq_true_eq] at hvalid
  obtain ⟨⟨hport, -⟩, hlen⟩ := hvalid
  exact ⟨fun _ => ⟨hport, hlen, hbuf⟩, by simp [Frp.issued, maxRetries]⟩

/-- With the FRP at work, FG's stack fits when its callers do. -/
theorem stackOk_frp {callers : List Frame} {f : FrpPhase} {d : DcmPhase} (hf : f ≠ .idle)
    (hcallers : frpCallersOk callers d = true) : stackOk (.frp :: callers) f d = true := by
  simp [stackOk, hf, hcallers]

theorem stackOk_dcm {callers : List Frame} {k : Pass} {d : DcmPhase} (hd : passPhaseOk k d = true)
    (hcallers : callersOk k callers = true) : stackOk (.dcm k :: callers) .idle d = true := by
  simp [stackOk, hd, hcallers]

theorem issueRead_sequencerSound {p addr len : Byte} {buf : FrpBuf} {callers : List Frame}
    (hcallers : frpCallersOk callers s.dcm.phase = true) (hattempt : s.frp.attempt ≤ maxRetries)
    (hbuf : buf = .internal → len = 1) : (issueRead p addr len buf callers s).sequencerSound := by
  rw [issueRead_eq]
  split
  · exact ⟨stackOk_frp (by simp [Frp.issued]) hcallers, Frp.issued_sound ‹_› hbuf⟩
  · exact ⟨stackOk_frp (by simp) hcallers, Frp.sound_of_not_running rfl hattempt⟩

theorem issueWrite_sequencerSound {p addr len : Byte} {buf : FrpBuf} {callers : List Frame}
    (hcallers : frpCallersOk callers s.dcm.phase = true) (hattempt : s.frp.attempt ≤ maxRetries)
    (hbuf : buf = .internal → len = 1) : (issueWrite p addr len buf callers s).sequencerSound := by
  obtain ⟨hvalid, h⟩ | ⟨-, h⟩ := issueWrite_cases p addr len buf callers s <;> rw [h]
  · exact ⟨stackOk_frp (by simp [Frp.issued]) hcallers, Frp.issued_sound hvalid hbuf⟩
  · exact ⟨stackOk_frp (by simp) hcallers, Frp.sound_of_not_running rfl hattempt⟩

theorem issuePass_sequencerSound {k : Pass} {p target : Byte} {callers : List Frame}
    (hcallers : callersOk k callers = true) (hidle : s.frp.phase = .idle) (hattempt : s.frp.attempt ≤ maxRetries) :
    (issuePass k p target callers s).sequencerSound := by
  have hfrp : s.frp.sound s.nPorts := Frp.sound_of_idle hidle hattempt
  obtain ⟨-, h⟩ | ⟨-, h⟩ := issuePass_cases k p target callers s <;> rw [h] <;>
    exact ⟨hidle ▸ stackOk_dcm rfl hcallers, hfrp⟩

/-! ### Returning -/

/-- The phase a pass takes when its WRITE_REG returns is one it can be in. -/
theorem passPhaseOk_afterWrite (k : Pass) (st : Status) : passPhaseOk k (afterWrite k st) = true := by
  unfold afterWrite
  split <;> rfl

/-- A pass that goes on in a phase it can be in, above the callers it has. -/
theorem setDcmPhase_sequencerSound {k : Pass} {callers : List Frame} {ph : DcmPhase} (hph : passPhaseOk k ph = true)
    (hcallers : callersOk k callers = true) (hidle : s.frp.phase = .idle) (hattempt : s.frp.attempt ≤ maxRetries) :
    ((s.setDcmPhase ph).setFg (.dcm k :: callers)).sequencerSound :=
  ⟨by simpa [hidle] using stackOk_dcm hph hcallers, Frp.sound_of_idle hidle hattempt⟩

/-- A return of a call, to a stack that can take it, leaves FG's stack in step with the sequencers. -/
theorem deliver_sequencerSound {stack : List Frame} {st : Status} {v : ReturnValue} (h : deliver stack st v s = .next t)
    (hidle : s.frp.phase = .idle) (hattempt : s.frp.attempt ≤ maxRetries)
    (hreturn : returnOk s.dcm.phase stack = true) : t.sequencerSound := by
  fun_induction deliver stack st v s with
  | case1 =>
    cases h
    have hd := of_decide_eq_true hreturn
    exact ⟨by simp [stackOk, hidle, hd], Frp.sound_of_idle hidle hattempt⟩
  | case2 =>
    cases h
    exact setDcmPhase_sequencerSound (by split <;> rfl) (callersOk_of_returnOk_dcm hreturn) hidle hattempt
  | case3 =>
    cases h
    exact setDcmPhase_sequencerSound (passPhaseOk_afterWrite _ _) (callersOk_of_returnOk_dcm hreturn) hidle hattempt
  | case4 =>
    cases h
    exact setDcmPhase_sequencerSound rfl (callersOk_of_returnOk_dcm hreturn) hidle hattempt
  | case6 | case7 | case9 | case10 | case11 | case12 | case14 | case16 | case18 =>
    rename_i ih
    exact ih h hidle hattempt (returnOk_below hreturn (by simp))
  | case8 =>
    cases h
    obtain ⟨-, hbelow⟩ := returnOk_ensure.mp hreturn
    exact issuePass_sequencerSound (by simp [callersOk, hbelow]) hidle hattempt
  | case13 =>
    cases h
    obtain ⟨-, rfl⟩ := returnOk_settings.mp hreturn
    exact issuePass_sequencerSound rfl hidle hattempt
  | case15 =>
    cases h
    obtain ⟨hd, rfl⟩ := returnOk_settings.mp hreturn
    exact issueWrite_sequencerSound (by simp [frpCallersOk, settingsOrNone, hd]) hattempt (by simp)
  | case17 =>
    cases h
    obtain ⟨-, rfl⟩ := returnOk_settings.mp hreturn
    exact issuePass_sequencerSound rfl hidle hattempt
  | case5 | case19 | case20 => cases h

/-! ### FG's turn -/

/-- A row of R171 before Done keeps the FRP's frame on top of FG's stack, and its registers sound. -/
theorem FrpRow.sequencerSound {callers : List Frame} (h : FrpRow s t) (hfg : s.fg = .frp :: callers)
    (hrun : s.frp.phase.running = true) (hs : s.sequencerSound) : t.sequencerSound := by
  obtain ⟨hports, hfg', hdcm, hphase, hport, hlen, hbuf, hattempt⟩ := h
  obtain ⟨hstack, hregs, hbound⟩ := hs
  have hn : t.nPorts = s.nPorts := hports.length
  have hcallers : frpCallersOk callers s.dcm.phase = true := by
    simp only [hfg, stackOk, Bool.and_eq_true] at hstack
    exact hstack.2
  refine ⟨?_, fun _ => ?_, hattempt hbound⟩
  · rw [hfg', hfg, hdcm]
    exact stackOk_frp hphase hcallers
  · rw [hport, hlen, hbuf, hn]
    exact hregs hrun

theorem frp_on_top (hphase : s.frp.phase ≠ .idle) (hs : s.sequencerSound) : ∃ callers, s.fg = .frp :: callers := by
  obtain ⟨hstack, -⟩ := hs
  cases hfg : s.fg with
  | nil => simp [hfg, stackOk, hphase] at hstack
  | cons f callers =>
    cases f with
    | frp => exact ⟨callers, rfl⟩
    | _ => simp [hfg, stackOk, hphase] at hstack

theorem evaluateHeader_outside {b0 b1 : Byte} (h : s.frp.phase ≠ .evaluate) : evaluateHeader b0 b1 s = s := by
  obtain ⟨-, heq⟩ | ⟨hphase, -⟩ | ⟨hphase, -⟩ | ⟨hphase, -⟩ := evaluateHeader_cases b0 b1 s
  · exact heq
  all_goals exact absurd hphase h

/-- In the row Evaluate the FRP is at work, so its frame is on top; elsewhere a header changes nothing. -/
theorem evaluateHeader_sequencerSound (b0 b1 : Byte) (hs : s.sequencerSound) :
    (evaluateHeader b0 b1 s).sequencerSound := by
  by_cases hphase : s.frp.phase = .evaluate
  · obtain ⟨callers, hfg⟩ := frp_on_top (by simp [hphase]) hs
    exact (evaluateHeader_row (by simp [hphase]) b0 b1).sequencerSound hfg (by rw [hphase]; rfl) hs
  · rwa [evaluateHeader_outside hphase]

theorem frpStep_sequencerSound {callers : List Frame} (hfg : s.fg = .frp :: callers) (hs : s.sequencerSound)
    (h : frpStep callers s = .next t) : t.sequencerSound := by
  obtain ⟨st, -, hdeliver⟩ | ⟨hrun, hrow⟩ := frpStep_cases h
  · obtain ⟨hstack, -, hattempt⟩ := hs
    simp only [hfg, stackOk, Bool.and_eq_true] at hstack
    obtain ⟨-, hcallers⟩ := hstack
    exact deliver_sequencerSound hdeliver rfl hattempt (returnOk_of_frpCallersOk hcallers)
  · exact hrow.sequencerSound hfg hrun hs

theorem delayStep_sequencerSound {n : Half} {t0 : Tick} {callers : List Frame} (hfg : s.fg = .delay n t0 :: callers)
    (hs : s.sequencerSound) (h : delayStep n t0 callers s = .next t) : t.sequencerSound := by
  unfold delayStep at h
  split at h
  · obtain ⟨hstack, -, hattempt⟩ := hs
    obtain ⟨hidle, hcallers⟩ : s.frp.phase = .idle ∧ delayCallersOk callers s.dcm.phase = true := by
      simpa [hfg, stackOk] using hstack
    exact deliver_sequencerSound h hidle hattempt (returnOk_of_delayCallersOk hcallers)
  · cases h
    exact hs

/-- Where a pass goes from Decide is a phase it can be in. -/
theorem passPhaseOk_decideNext (k : Pass) (cur target : Byte) : passPhaseOk k (decideNext k cur target) = true := by
  cases k with
  | selectPage =>
    simp only [decideNext]
    split <;> rfl
  | getMode | setMode => rfl

theorem dcmStep_sequencerSound {k : Pass} {callers : List Frame} (hfg : s.fg = .dcm k :: callers)
    (hs : s.sequencerSound) (h : dcmStep k callers s = .next t) : t.sequencerSound := by
  obtain ⟨hstack, -, hattempt⟩ := hs
  obtain ⟨⟨hidle, hphase⟩, hcallers⟩ : (s.frp.phase = .idle ∧ passPhaseOk k s.dcm.phase = true) ∧
      callersOk k callers = true := by simpa [hfg, stackOk] using hstack
  have hregs : ∀ n, s.frp.sound n := fun n => Frp.sound_of_idle hidle hattempt
  unfold dcmStep at h
  cases hph : s.dcm.phase with rw [hph] at h hphase
  | idle => cases h
  | readCurrent =>
    cases h
    exact issueRead_sequencerSound (by simp [frpCallersOk, passCallsFrp, hph, hcallers]) hattempt fun _ => rfl
  | decide =>
    cases h
    refine ⟨?_, hregs _⟩
    simpa only [hfg, hidle] using stackOk_dcm (passPhaseOk_decideNext k _ _) hcallers
  | writeNew =>
    cases h
    have hk : k ≠ .getMode := of_decide_eq_true hphase
    exact issueWrite_sequencerSound (by simp [frpCallersOk, passCallsFrp, hph, hcallers, hk]) hattempt fun _ => rfl
  | settle =>
    change dcmSettle k callers s = .next t at h
    have hk : k = .setMode := of_decide_eq_true hphase
    unfold dcmSettle at h
    split at h <;> cases h
    · refine ⟨?_, hregs _⟩
      simpa [hfg, hidle] using stackOk_dcm (d := .done .success) rfl hcallers
    · refine ⟨?_, hregs _⟩
      simp [stackOk, delayCallersOk, hidle, hk, hph, hk ▸ hcallers]
  | done st => exact deliver_sequencerSound h hidle hattempt (returnOk_of_callersOk hcallers)

/-- An instruction that goes on keeps FG's stack in step with the sequencers: a host operation that waits puts its own
frame on an empty stack, and a header leaves the FRP at work. -/
theorem ExecNext.sequencerSound {i : Instr} (h : ExecNext s i t) (hs : s.sequencerSound) : t.sequencerSound := by
  obtain ⟨hparams, hlength, -⟩ := h.instrWrites.ports
  have hissue : s.fg = [] → s.frp.phase = .idle ∧ s.dcm.phase = .idle ∧ s.frp.attempt ≤ maxRetries := by
    obtain ⟨hstack, -, hattempt⟩ := hs
    intro hfg
    simpa [hfg, stackOk, and_assoc, hattempt] using hstack
  cases h with
  | returned _ hfg | transport _ hfg => exact sequencerSound_congr hs hfg.symm rfl rfl hlength
  | delay hfg =>
    obtain ⟨hf, hd, hattempt⟩ := hissue hfg
    exact ⟨by simp [stackOk, delayCallersOk, hf, hd], Frp.sound_of_idle hf hattempt⟩
  | issueRead _ hfg =>
    obtain ⟨-, hd, hattempt⟩ := hissue hfg
    exact issueRead_sequencerSound (by simp [frpCallersOk, settingsOrNone, hd]) hattempt (by simp)
  | issueWrite _ hfg =>
    obtain ⟨-, hd, hattempt⟩ := hissue hfg
    exact issueWrite_sequencerSound (by simp [frpCallersOk, settingsOrNone, hd]) hattempt (by simp)
  | issuePass _ hfg k p target callers hcallers =>
    obtain ⟨hf, -, hattempt⟩ := hissue hfg
    exact issuePass_sequencerSound hcallers hf hattempt
  | notPending => exact hs
  | arm | tick | answered => exact sequencerSound_congr hs rfl rfl rfl hlength
  | stored _ _ hu => obtain ⟨-, rfl⟩ | ⟨-, rfl⟩ := writeByte_ok hu <;> exact sequencerSound_congr hs rfl rfl rfl hlength
  | header _ b0 b1 => exact evaluateHeader_sequencerSound b0 b1 hs

theorem fgTurn_sequencerSound (hs : s.sequencerSound) (h : fgTurn s = .next t) : t.sequencerSound := by
  cases hfg : s.fg with
  | nil =>
    rw [fgTurn_idle hfg] at h
    obtain rfl | ⟨i, rest, -, hexec⟩ := fetchHost_cases h
    · exact hs
    · exact (exec_next hexec).sequencerSound hs
  | cons f callers =>
    unfold fgTurn at h
    rw [hfg] at h
    cases f with
    | delay n t0 => exact delayStep_sequencerSound hfg hs h
    | frp => exact frpStep_sequencerSound hfg hs h
    | dcm k => exact dcmStep_sequencerSound hfg hs h
    | ensure | restore | settings => cases h

theorem step_keeps_sequencerSound (hs : s.sequencerSound) (h : step s = .next t) : t.sequencerSound := by
  obtain ⟨ms, -, h⟩ | ⟨record, ms, -, i, tail, -, h⟩ | ⟨ms, -, rfl⟩ | ⟨-, ms, -, h⟩ := step_next h
  · exact fgTurn_sequencerSound (s := { s with moves := ms }) hs h
  · exact (exec_next h).sequencerSound hs
  · exact ⟨rfl, Frp.sound_of_idle rfl (show Frp.reset.attempt ≤ maxRetries by decide)⟩
  · exact sequencerSound_congr hs h.fg h.frp h.dcm h.ports.length

/-- Settles O55: the transport invariants port by port, and the sequencers' along what a step can do. -/
theorem stepKeepsSound : Obligations.StepKeepsSound := by
  intro s t hs h
  have hsequencer : s.sequencerSound := hs.right
  exact ⟨step_keeps_transportSound hs h, step_keeps_sequencerSound hsequencer h⟩

end

end Sys2Proof.Machine
end

section
/-! SUPPORT. Where a step can stop: each operation of the machine goes on, or stops as the spec itself asks (R73, R92,
R112, R146, R160), where the invariants of a sound state hold. -/

namespace Sys2Proof.Machine

/-! ### Accesses and records -/

/-- The operation goes on, or stops where the spec gives no meaning. -/
abbrev StopsBySpec (r : Result) : Prop := Result.specStop r = true

section
variable {s : State}

theorem stopsBySpec_refusalOf (e : DecodeError) : StopsBySpec (.refused (refusalOf e)) := by
  cases e <;> rfl

theorem writeByte_error {sp : Space} {a : Nat} {b : Byte} {f : Fault} (h : writeByte s sp a b = .error f)
    (hscr : sp = .scr → a < 5) : f = .outsideDmem := by
  obtain ⟨-, -, h'⟩ | ⟨-, -, h'⟩ | ⟨-, -, h'⟩ | ⟨hsp, ha, -⟩ := writeByte_cases s sp a b
  · cases h'.symm.trans h
  · cases h'.symm.trans h
    rfl
  · cases h'.symm.trans h
  · exact absurd (hscr hsp) (by omega)

theorem readByte_error {sp : Space} {a : Nat} {f : Fault} (h : readByte s sp a = .error f)
    (hscr : sp = .scr → a < 5) : f = .outsideDmem := by
  cases sp with
  | dmem =>
    simp only [readByte] at h
    split at h <;> cases h
    rfl
  | scr => simp [readByte, hscr rfl] at h

/-- The response of every FRP operation starts inside SCR, when it lies there (R172, R180). -/
theorem Frp.dest_scr_lt {r : Frp} (h : r.dest.space = .scr) : r.dest.addr < 5 := by
  unfold Frp.dest at *
  cases hkind : r.kind with
  | write => simp
  | read =>
    cases hbuf : r.buf with
    | dmem a => simp [hkind, hbuf] at h
    | internal => simp

theorem responseHeader_error {f : Fault} (h : responseHeader s = .error f) : f = .outsideDmem := by
  unfold responseHeader at h
  split at h
  · cases h
    exact readByte_error ‹_› Frp.dest_scr_lt
  · split at h <;> cases h

theorem responseHeader_ok {bytes : List Byte} (h : responseHeader s = .ok bytes) : ∃ b0 b1, bytes = [b0, b1] := by
  unfold responseHeader at h
  split at h
  · cases h
  · split at h <;> cases h <;> exact ⟨_, _, rfl⟩

/-- A frame cannot be built only when the payload is not wholly inside DMEM (R92, R108). -/
theorem frpFrame_error {f : Fault} (h : frpFrame s = .error f) : f = .outsideDmem := by
  unfold frpFrame at h
  split at h
  · cases h
  · split at h
    · cases h
    · rename_i hpayload
      cases h
      unfold frpPayload at hpayload
      split at hpayload
      · exact readDmem_error _ _ _ _ hpayload
      · cases hpayload

/-! ### Instructions -/

/-- A host operation with a port operand, from an idle foreground, stops only where it does on the port. -/
theorem foreground_onPort_stopsBySpec {p : Byte} {k : Port → Result} (hfg : s.fg = [])
    (hk : ∀ port, StopsBySpec (k port)) : StopsBySpec (foreground s (onPort p s k)) := by
  rw [foreground_idle s _ hfg]
  obtain ⟨-, h⟩ | ⟨port, -, h⟩ := onPort_cases p s k <;> rw [h]
  · rfl
  · exact hk port

theorem execPortInit_stopsBySpec (p : Byte) (hfg : s.fg = []) : StopsBySpec (execPortInit p s) := by
  refine foreground_onPort_stopsBySpec hfg fun port => ?_
  split
  · rfl
  · split <;> rfl

theorem execBeginTx_stopsBySpec (p : Byte) (src : Nat) (n : Half) (hfg : s.fg = []) :
    StopsBySpec (execBeginTx p src n s) := by
  refine foreground_onPort_stopsBySpec hfg fun port => ?_
  split
  · rfl
  · split
    · split
      · rfl
      · rename_i f hread
        rw [readDmem_error _ _ _ f hread]
        rfl
    · rfl

theorem execComputeTimeout_stopsBySpec (b w q d n : Nat) (m : Margin) (hfg : s.fg = []) :
    StopsBySpec (execComputeTimeout b w q d n m s) := by
  rw [execComputeTimeout, foreground_idle s _ hfg]
  split <;> rfl

theorem execDelay_stopsBySpec (n : Half) (hfg : s.fg = []) : StopsBySpec (execDelay n s) := by
  rw [execDelay, foreground_idle s _ hfg]
  split <;> rfl

theorem exec_host_stopsBySpec {i : Instr} (hi : i.channel = .host) (hfg : s.fg = []) : StopsBySpec (exec i s) := by
  have hnext : ∀ t, StopsBySpec (foreground s (.next t)) := fun t => by rw [foreground_idle s _ hfg]; rfl
  cases i with
  | portInit p => exact execPortInit_stopsBySpec p hfg
  | beginTx p src n => exact execBeginTx_stopsBySpec p src n hfg
  | abortRx | txStatus | rxStatus => exact foreground_onPort_stopsBySpec hfg fun _ => rfl
  | computeTimeout b w q d n m => exact execComputeTimeout_stopsBySpec b w q d n m hfg
  | delay n => exact execDelay_stopsBySpec n hfg
  | beginRx | readReg | writeReg | selectPage | getMode | setMode | ensureConfig | restoreMode | settingsWrite =>
    exact hnext _
  | irqTxe | irqTc | irqRxne | tick | rd | wr | rsp | rspErr => cases hi

/-- With TXEIE on, the cursor is inside the buffer (R54, R56). -/
theorem Transmit.sound.cur_lt_buf {cap : Nat} {x : Transmit} (h : x.sound cap) (htxeie : x.txeie = true) :
    x.cur.toNat < x.buf.length := by
  obtain ⟨-, -, hcur, -, -, -, hcap, hbuf⟩ := h
  have hlt : x.cur.toNat < x.len.toNat := hcur htxeie
  omega

/-- With RXNEIE on, the next byte of a receive into SCR is inside SCR (R55, R71). -/
theorem Port.rxAddr_lt {port : Port} (h : port.rx.sound) (hrxneie : port.rx.rxneie = true)
    (hscr : port.rx.dest.space = .scr) : port.rxAddr < 5 := by
  obtain ⟨-, hcur, -, hroom⟩ := h
  have hlt : port.rx.cur.toNat < port.rx.len.toNat := hcur hrxneie
  have hfit := hroom hscr
  unfold Port.rxAddr
  omega

theorem execIrqTxe_stopsBySpec (p : Byte) (hs : s.transportSound) : StopsBySpec (execIrqTxe p s) := by
  unfold execIrqTxe
  obtain ⟨h, -⟩ | ⟨port, hp, hpending, h⟩ := takeInterrupt_cases p s Port.pendingTxe _ <;> rw [h]
  · rfl
  · obtain ⟨htx, -⟩ := hs port (List.mem_of_getElem? hp)
    obtain ⟨htxeie, -⟩ : port.tx.txeie = true ∧ port.periph.txe = true := by simpa [Port.pendingTxe] using hpending
    rw [List.getElem?_eq_getElem (Transmit.sound.cur_lt_buf htx htxeie)]
    rfl

theorem execIrqTc_stopsBySpec (p : Byte) : StopsBySpec (execIrqTc p s) := by
  unfold execIrqTc
  obtain ⟨h, -⟩ | ⟨port, -, -, h⟩ := takeInterrupt_cases p s Port.pendingTc _ <;> rw [h] <;> rfl

theorem execIrqRxne_stopsBySpec (p : Byte) (hs : s.transportSound) : StopsBySpec (execIrqRxne p s) := by
  unfold execIrqRxne
  obtain ⟨h, -⟩ | ⟨port, hp, hpending, h⟩ := takeInterrupt_cases p s Port.pendingRxne _ <;> rw [h]
  · rfl
  · obtain ⟨-, -, hrx⟩ := hs port (List.mem_of_getElem? hp)
    obtain ⟨hrxneie, -⟩ : port.rx.rxneie = true ∧ port.periph.rxne = true := by
      simpa [Port.pendingRxne] using hpending
    split
    · rfl
    · split
      · rfl
      · rename_i f hwrite
        rw [writeByte_error hwrite (Port.rxAddr_lt hrx hrxneie)]
        rfl

theorem exec_event_stopsBySpec {i : Instr} (hi : i.channel = .event) (hs : s.transportSound) :
    StopsBySpec (exec i s) := by
  cases i with
  | irqTxe p => exact execIrqTxe_stopsBySpec p hs
  | irqTc p => exact execIrqTc_stopsBySpec p
  | irqRxne p => exact execIrqRxne_stopsBySpec p hs
  | tick => rfl
  | _ => cases hi

/-- The device of a port that exists executes every frame. -/
theorem exec_frame_stopsBySpec {i : Instr} {port : Port} (hi : i.channel = .frame)
    (hport : s.ports[s.activePort]? = some port) : StopsBySpec (exec i s) := by
  cases i with
  | rd reg len =>
    simp only [exec, execRd, hport]
    split <;> rfl
  | wr reg len payload =>
    simp only [exec, execWr, hport]
    split
    · rfl
    · split <;> rfl
  | _ => cases hi

theorem exec_response_stopsBySpec {i : Instr} (hi : i.channel = .response) : StopsBySpec (exec i s) := by
  cases i with
  | rsp | rspErr => rfl
  | _ => cases hi

/-! ### FG's turn -/

theorem returnOk_dcm_phase {d : DcmPhase} {k : Pass} {callers : List Frame}
    (h : returnOk d (.dcm k :: callers) = true) : d = .readCurrent ∨ d = .writeNew ∨ d = .settle := by
  cases d with
  | readCurrent | writeNew | settle => simp
  | idle | decide | done => simp [returnOk, passCallsFrp] at h

/-- A return of a call to a stack that can take it goes on. -/
theorem deliver_stopsBySpec {stack : List Frame} {st : Status} {v : ReturnValue}
    (hreturn : returnOk s.dcm.phase stack = true) : StopsBySpec (deliver stack st v s) := by
  fun_induction deliver stack st v s with
  | case1 | case2 | case3 | case4 | case8 | case13 | case15 | case17 => rfl
  | case5 =>
    obtain hd | hd | hd := returnOk_dcm_phase hreturn <;> contradiction
  | case6 | case7 | case9 | case10 | case11 | case12 | case14 | case16 | case18 =>
    rename_i ih
    exact ih (returnOk_below hreturn (by simp))
  | case19 | case20 => cases hreturn

theorem frpCompose_stopsBySpec : StopsBySpec (frpCompose s) := by
  unfold frpCompose
  split
  · rename_i f hframe
    rw [frpFrame_error hframe]
    rfl
  · split <;> rfl

theorem frpArmReceive_stopsBySpec : StopsBySpec (frpArmReceive s) := by
  unfold frpArmReceive
  split <;> rfl

theorem frpEvaluate_stopsBySpec : StopsBySpec (frpEvaluate s) := by
  unfold frpEvaluate
  split
  · rename_i f hheader
    rw [responseHeader_error hheader]
    rfl
  · rename_i bytes hheader
    obtain ⟨b0, b1, rfl⟩ := responseHeader_ok hheader
    by_cases hb0 : b0 = sentinel <;> simp only [decodeResponse, hb0, if_true, if_false] <;>
      exact exec_response_stopsBySpec rfl

/-- The rows of R171 that look at the FRP's port find it. -/
theorem frpPort_stopsBySpec {port : Port} (hport : s.ports[s.frp.port.toNat]? = some port) :
    StopsBySpec (frpTransmitting s) ∧ StopsBySpec (frpStartupDelay s) ∧ StopsBySpec (frpAwaitingResponse s) := by
  refine ⟨?_, ?_, ?_⟩
  · simp only [frpTransmitting, hport]
    split <;> rfl
  · simp only [frpStartupDelay, hport]
    split
    · rfl
    · split <;> rfl
  · simp only [frpAwaitingResponse, hport]
    split
    · rfl
    · split <;> rfl

theorem frpStep_stopsBySpec {callers : List Frame} (hfg : s.fg = .frp :: callers) (hs : s.sequencerSound) :
    StopsBySpec (frpStep callers s) := by
  obtain ⟨hstack, hrunning, -⟩ := hs
  obtain ⟨hphase, hcallers⟩ : s.frp.phase ≠ .idle ∧ frpCallersOk callers s.dcm.phase = true := by
    simpa [hfg, stackOk] using hstack
  have hport : s.frp.phase.running = true → ∃ port, s.ports[s.frp.port.toNat]? = some port := fun hrun =>
    ⟨_, List.getElem?_eq_getElem (hrunning hrun).left⟩
  unfold frpStep
  cases hph : s.frp.phase with rw [hph] at hport
  | idle => exact absurd hph hphase
  | compose => exact frpCompose_stopsBySpec
  | armReceive => exact frpArmReceive_stopsBySpec
  | evaluate => exact frpEvaluate_stopsBySpec
  | transmitting | startupDelay | awaitingResponse =>
    obtain ⟨port, hport⟩ := hport rfl
    obtain ⟨htransmitting, hdelay, hawaiting⟩ := frpPort_stopsBySpec hport
    assumption
  | done st => exact deliver_stopsBySpec (s := s.setFrpPhase .idle) (returnOk_of_frpCallersOk hcallers)

theorem delayStep_stopsBySpec {n : Half} {t0 : Tick} {callers : List Frame} (hfg : s.fg = .delay n t0 :: callers)
    (hs : s.sequencerSound) : StopsBySpec (delayStep n t0 callers s) := by
  obtain ⟨hstack, -⟩ := hs
  obtain ⟨-, hcallers⟩ : s.frp.phase = .idle ∧ delayCallersOk callers s.dcm.phase = true := by
    simpa [hfg, stackOk] using hstack
  unfold delayStep
  split
  · exact deliver_stopsBySpec (returnOk_of_delayCallersOk hcallers)
  · rfl

theorem dcmStep_stopsBySpec {k : Pass} {callers : List Frame} (hfg : s.fg = .dcm k :: callers)
    (hs : s.sequencerSound) : StopsBySpec (dcmStep k callers s) := by
  obtain ⟨hstack, -⟩ := hs
  obtain ⟨⟨-, hphase⟩, hcallers⟩ : (s.frp.phase = .idle ∧ passPhaseOk k s.dcm.phase = true) ∧
      callersOk k callers = true := by simpa [hfg, stackOk] using hstack
  unfold dcmStep
  cases hph : s.dcm.phase with rw [hph] at hphase
  | idle => cases hphase
  | readCurrent | decide | writeNew => rfl
  | settle =>
    change StopsBySpec (dcmSettle k callers s)
    unfold dcmSettle
    split <;> rfl
  | done st => exact deliver_stopsBySpec (s := s.setDcmPhase .idle) (returnOk_of_callersOk hcallers)

theorem fetchHost_stopsBySpec (hfg : s.fg = []) : StopsBySpec (fetchHost s) := by
  unfold fetchHost
  split
  · rfl
  · split
    · rename_i i rest hdecode
      exact exec_host_stopsBySpec (decodeHost_onChannel _ _ i rest hdecode) hfg
    · exact stopsBySpec_refusalOf _

/-- FG's turn in a sound state: the frame on top is one that moves, and its sequencer is at work. -/
theorem fgTurn_stopsBySpec (hs : s.sequencerSound) : StopsBySpec (fgTurn s) := by
  cases hfg : s.fg with
  | nil => rw [fgTurn_idle hfg]; exact fetchHost_stopsBySpec hfg
  | cons f callers =>
    unfold fgTurn
    rw [hfg]
    cases f with
    | delay n t0 => exact delayStep_stopsBySpec hfg hs
    | frp => exact frpStep_stopsBySpec hfg hs
    | dcm k => exact dcmStep_stopsBySpec hfg hs
    | ensure | restore | settings =>
      obtain ⟨hstack, -⟩ := hs
      rw [hfg] at hstack
      cases hstack

/-! ### The other agents, and a step -/

theorem fireEvent_stopsBySpec (record : List Byte) (hs : s.transportSound) : StopsBySpec (fireEvent record s) := by
  unfold fireEvent
  split
  · rename_i i tail hdecode
    exact exec_event_stopsBySpec (decodeEvent_onChannel record i tail hdecode) hs
  · exact stopsBySpec_refusalOf _

/-- The frame a device has collected is executed on the port it came in on. -/
theorem runFrame_stopsBySpec (p : Nat) (cmd : List Byte) (fault : Option (Fin 9)) :
    StopsBySpec (runFrame p cmd fault s) := by
  unfold runFrame
  split
  · rfl
  · rename_i port hp
    split
    · rfl
    · split
      · rename_i i rest hdecode
        exact exec_frame_stopsBySpec (s := { s with activePort := p }) (decodeFrame_onChannel cmd i rest hdecode) hp
      · rfl

theorem devTake_stopsBySpec (p : Nat) (fault : Option (Fin 9)) : StopsBySpec (devTake p fault s) := by
  unfold devTake
  split
  · rfl
  · split
    · rfl
    · split
      · rfl
      · split
        · exact runFrame_stopsBySpec _ _ _
        · rfl

theorem hostStore_stopsBySpec (a : Nat) (b : Byte) : StopsBySpec (hostStore a b s) := by
  unfold hostStore
  split
  · rfl
  · rename_i f hwrite
    rw [writeByte_error hwrite (by simp)]
    rfl

theorem runMove_stopsBySpec (m : Move) (hs : s.sound) : StopsBySpec (runMove m s) := by
  obtain ⟨htransport, hsequencer⟩ := hs
  cases m with
  | fg => exact fgTurn_stopsBySpec hsequencer
  | event record => exact fireEvent_stopsBySpec record htransport
  | devTake p fault => exact devTake_stopsBySpec p fault
  | hostStore a b => exact hostStore_stopsBySpec a b
  | txLoad | txShiftOut | rxArrive | devSend | configure | resetBlock => rfl

end

/-- Settles O56: FG's turn by the sequencers' invariants, the events by the transport's, the other moves from any
state. -/
theorem soundStepStopsOnlyBySpec : Obligations.SoundStepStopsOnlyBySpec := by
  intro s hs
  unfold step nextStep
  split
  · exact fgTurn_stopsBySpec hs.right
  · rename_i m ms _
    exact runMove_stopsBySpec (s := { s with moves := ms }) m hs

end Sys2Proof.Machine
end

section
/-! SUPPORT. The encodings both ways: each channel's decoder reads back what the encoder writes, and answers only what
the encoder writes; the words of the spec, unknown selectors, and an event's step. -/

namespace Sys2Proof

/-! ### What the encoder writes is read back -/

/-- Decoding the record of an event gives it back, with the bytes after it; TICK alone has no port. -/
theorem decodeEvent_encode (size : Nat) {i : Instr} (rest : List Byte) (hi : i.channel = .event) :
    decodeEvent (encode size i ++ rest) = .ok (i, rest) := by
  cases i with
  | irqTxe | irqTc | irqRxne | tick => simp [encode, decodeEvent]
  | _ => cases hi

theorem decodeFrame_rdFrame (reg len : Byte) (rest : List Byte) :
    decodeFrame (rdFrame reg len ++ rest) = .ok (.rd reg len, rest) := by
  simp [decodeFrame, rdFrame]

/-- A write frame is cut after its payload because `len` counts the payload (R102). -/
theorem decodeFrame_wrFrame {len : Byte} {payload : List Byte} (reg : Byte) (rest : List Byte)
    (hlen : payload.length = len.toNat) :
    decodeFrame (wrFrame reg len payload ++ rest) = .ok (.wr reg len payload, rest) := by
  simp [decodeFrame, wrFrame, ← hlen, opWrite, opRead]

/-- Decoding the frame of a well-formed device command gives it back, with the bytes after it. -/
theorem decodeFrame_encode {size : Nat} {i : Instr} (rest : List Byte) (hwf : i.wf size = true)
    (hi : i.channel = .frame) : decodeFrame (encode size i ++ rest) = .ok (i, rest) := by
  cases i with
  | rd reg len => exact decodeFrame_rdFrame reg len rest
  | wr reg len payload =>
    obtain ⟨-, hlen⟩ : len ≠ 0 ∧ payload.length = len.toNat := by simpa [Instr.wf] using hwf
    exact decodeFrame_wrFrame reg rest hlen
  | _ => cases hi

theorem decodeResponse_sentinel (code : Byte) (rest : List Byte) :
    decodeResponse (sentinel :: code :: rest) = .ok (.rspErr code, rest) := by
  simp [decodeResponse]

theorem decodeResponse_of_ne {status : Byte} (length : Byte) (rest : List Byte) (h : status ≠ sentinel) :
    decodeResponse (status :: length :: rest) = .ok (.rsp status length, rest) := by
  simp [decodeResponse, h]

/-- Decoding a well-formed response header gives it back, with the bytes after it. -/
theorem decodeResponse_encode {size : Nat} {i : Instr} (rest : List Byte) (hwf : i.wf size = true)
    (hi : i.channel = .response) : decodeResponse (encode size i ++ rest) = .ok (i, rest) := by
  cases i with
  | rsp status length => exact decodeResponse_of_ne length rest (of_decide_eq_true hwf)
  | rspErr code => exact decodeResponse_sentinel code rest
  | _ => cases hi

/-- Settles O1, channel by channel. -/
theorem decodeEncode : Obligations.DecodeEncode := by
  intro size i rest hwf
  cases hi : i.channel with
  | host => exact decodeHost_encode rest hwf hi
  | event => exact decodeEvent_encode size rest hi
  | frame => exact decodeFrame_encode rest hwf hi
  | response => exact decodeResponse_encode rest hwf hi

/-! ### What a decoder answers, it has read -/

/-- Whatever instruction the decoder answers is well formed, and its encoding and the rest make up `bytes`. -/
def Decoded.Reads (size : Nat) (bytes : List Byte) (d : Decoded) : Prop :=
  ∀ i rest, d = .ok (i, rest) → bytes = encode size i ++ rest ∧ i.wf size = true

section
variable {size : Nat} {bytes r : List Byte}

@[simp] theorem Decoded.reads_ok {i : Instr} :
    Decoded.Reads size bytes (.ok (i, r)) ↔ bytes = encode size i ++ r ∧ i.wf size = true :=
  ⟨fun h => h i r rfl, fun h _ _ hok => by cases hok; exact h⟩

@[simp] theorem Decoded.reads_error {e : DecodeError} : Decoded.Reads size bytes (.error e) :=
  fun _ _ hok => nomatch hok

@[simp] theorem takeByte_reads {k : Byte → List Byte → Decoded} :
    (takeByte r k).Reads size bytes ↔ ∀ b r', r = b :: r' → (k b r').Reads size bytes := by
  cases r <;> simp [takeByte]

@[simp] theorem takeNat_reads {n : Nat} {k : Nat → List Byte → Decoded} :
    (takeNat n r k).Reads size bytes ↔ ∀ a r', a < 256 ^ n → r = natBytes n a ++ r' → (k a r').Reads size bytes := by
  constructor
  · rintro h a r' ha rfl
    rwa [takeNat_natBytes n a ha] at h
  · intro h i rest hok
    obtain ⟨a, r', ha, hr, hk⟩ := takeNat_ok hok
    exact h a r' ha hr i rest hk

@[simp] theorem takeHalf_reads {k : Half → List Byte → Decoded} :
    (takeHalf r k).Reads size bytes ↔ ∀ n r', r = halfBytes n ++ r' → (k n r').Reads size bytes := by
  constructor
  · rintro h n r' rfl
    rwa [takeHalf_halfBytes] at h
  · intro h i rest hok
    obtain ⟨n, r', hr, hk⟩ := takeHalf_ok hok
    exact h n r' hr i rest hk

end

/-- The operands taken, written back after the selector, are the record's bytes: along each arm, what the readers have
taken is what the encoder writes in that place. -/
theorem decodeOperands_reads (size : Nat) (sel : Byte) (r : List Byte) :
    (decodeOperands size sel r).Reads size (sel :: r) := by
  have hbyte (b : Byte) : b.toNat < 256 := b.isLt
  unfold decodeOperands
  split <;> simp +contextual [encode, Instr.wf, hbyte]

theorem decodeHost_reads (size : Nat) (bytes : List Byte) : (decodeHost size bytes).Reads size bytes := by
  cases bytes with
  | nil => exact Decoded.reads_error
  | cons sel r => exact decodeOperands_reads size sel r

theorem decodeEvent_reads (size : Nat) (record : List Byte) : (decodeEvent record).Reads size record := by
  unfold decodeEvent
  split
  · simp
  · split <;> simp +contextual [encode, Instr.wf]

/-- A frame with `len = 0` is read too, so what is read need not be well formed (R221, R226). -/
theorem decodeFrame_ok {cmd rest : List Byte} {i : Instr} (size : Nat) (h : decodeFrame cmd = .ok (i, rest)) :
    cmd = encode size i ++ rest := by
  unfold decodeFrame at h
  split at h
  · split at h
    · cases h
    · rename_i hsync
      obtain rfl := not_not.mp hsync
      split at h
      · rename_i hop
        cases h
        rw [hop]
        rfl
      · split at h
        · rename_i hop
          split at h
          · cases h
            simp [encode, wrFrame, hop]
          · cases h
        · cases h
  · cases h

theorem decodeResponse_reads (size : Nat) (bytes : List Byte) : (decodeResponse bytes).Reads size bytes := by
  unfold decodeResponse
  split
  · split <;> simp [encode, Instr.wf, *]
  · simp

/-- Settles O2, channel by channel: the decoders answer instructions of their channel and have read them. -/
theorem encodeDecode : Obligations.EncodeDecode := by
  intro size c bytes rest i h
  cases c with
  | host =>
    obtain ⟨hbytes, hwf⟩ := decodeHost_reads size bytes i rest h
    exact ⟨decodeHost_onChannel size bytes i rest h, hbytes, fun _ => hwf⟩
  | event =>
    obtain ⟨hbytes, hwf⟩ := decodeEvent_reads size bytes i rest h
    exact ⟨decodeEvent_onChannel bytes i rest h, hbytes, fun _ => hwf⟩
  | frame => exact ⟨decodeFrame_onChannel bytes i rest h, decodeFrame_ok size h, fun hc => absurd rfl hc⟩
  | response =>
    obtain ⟨hbytes, hwf⟩ := decodeResponse_reads size bytes i rest h
    exact ⟨decodeResponse_onChannel bytes i rest h, hbytes, fun _ => hwf⟩

/-! ### Words of the spec -/

/-- Settles O3: each fixed word is an encoding, and a header is told by its byte 0. -/
theorem specWordsDecode : Obligations.SpecWordsDecode := by
  refine ⟨decodeFrame_rdFrame 0x3D 0x01 [], decodeFrame_wrFrame (payload := [0x80]) 0x3B [] rfl,
    fun size => decodeHost_encode (i := .restoreMode 0x00 0x0C) [] rfl rfl, decodeEvent_encode 0 (i := .tick) [] rfl,
    fun b0 b1 => ?_⟩
  by_cases h : b0 = sentinel
  · subst h
    exact decodeResponse_sentinel b1 []
  · rw [if_neg (show b0 ≠ 0xEE from h)]
    exact decodeResponse_of_ne b1 [] h

/-- The selectors of R113. -/
abbrev hostSelectors : List Byte :=
  [0x00, 0x01, 0x02, 0x03, 0x04, 0x05, 0x06, 0x07, 0x10, 0x11, 0x20, 0x21, 0x22, 0x23, 0x24, 0x25]

/-- The codes of R114. -/
abbrev eventCodes : List Byte := [0x80, 0x81, 0x82, 0x83]

theorem decodeOperands_unknown {sel : Byte} (size : Nat) (r : List Byte) (h : sel ∉ hostSelectors) :
    decodeOperands size sel r = .error .unknownSelector := by
  unfold decodeOperands
  split
  case h_17 => rfl
  all_goals exact absurd (by decide) h

theorem decodeEvent_unknown {code : Byte} (r : List Byte) (h : code ∉ eventCodes) :
    decodeEvent (code :: r) = .error .unknownSelector := by
  simp only [decodeEvent]
  split
  case h_5 => rfl
  all_goals exact absurd (by decide) h

end Sys2Proof

namespace Sys2Proof.Machine

/-! ### Unknown selectors, and the step of an event -/

theorem fetchHost_error {s : State} {sel : Byte} {r : List Byte} {e : DecodeError} (hcommands : s.commands = sel :: r)
    (h : decodeOperands s.params.addrSize sel r = .error e) : fetchHost s = .refused (refusalOf e) := by
  simp only [fetchHost, hcommands, decodeHost, h]

theorem fireEvent_error {s : State} {record : List Byte} {e : DecodeError} (h : decodeEvent record = .error e) :
    fireEvent record s = .refused (refusalOf e) := by
  simp only [fireEvent, h]

theorem fireEvent_decoded {s : State} {record tail : List Byte} {i : Instr} (h : decodeEvent record = .ok (i, tail)) :
    fireEvent record s = exec i s := by
  simp only [fireEvent, h]

/-- Settles O4: both decoders fall through their tables. -/
theorem unknownSelectorsRefused : Obligations.UnknownSelectorsRefused :=
  ⟨fun _ _ r hfg hcommands hsel =>
    (fgTurn_idle hfg).trans (fetchHost_error hcommands (decodeOperands_unknown _ r hsel)),
   fun _ _ r hcode => fireEvent_error (decodeEvent_unknown r hcode)⟩

/-- Settles O6: the event's record is decoded back when its move comes. -/
theorem stepRunsEvent : Obligations.StepRunsEvent := by
  intro s i tail ms _ hi hmoves
  calc step s = fireEvent (encode s.params.addrSize i ++ tail) { s with moves := ms } := by
        simp [step, nextStep, hmoves, runMove]
    _ = exec i { s with moves := ms } := fireEvent_decoded (decodeEvent_encode _ tail hi)

end Sys2Proof.Machine
end

section
/-! SUPPORT. The response header in the row Evaluate of R171: which headers are errors (R105, R106), what each answer
does, and FG's turn that meets it. -/

namespace Sys2Proof.Machine

/-! ### Which headers are errors -/

theorem responseIsError_of_ne {b0 : Byte} (kind : FrpKind) (b1 : Byte) (h : b0 ≠ sentinel) :
    responseIsError kind b0 b1 = false := by
  cases kind <;> simp [responseIsError, h]

theorem responseIsError_write_iff {b0 b1 : Byte} :
    responseIsError .write b0 b1 = true ↔ b0 = sentinel ∧ b1 ≠ writeOkMark := by
  simp [responseIsError]

/-- Behind the sentinel only the code `01` of a write is no error (R106). -/
theorem responseIsError_sentinel {kind : FrpKind} {code : Byte} (h : kind = .read ∨ code ≠ writeOkMark) :
    responseIsError kind sentinel code = true := by
  cases kind with
  | read => simp [responseIsError]
  | write => simpa [responseIsError] using h

/-! ### What a header does -/

theorem lt_maxRetries_iff {a : BitVec 2} : a < maxRetries ↔ a.toNat < 2 := Iff.rfl

section
variable {s : State} {b0 b1 : Byte}

theorem evaluateHeader_success (hphase : s.frp.phase = .evaluate) (h : responseIsError s.frp.kind b0 b1 = false) :
    evaluateHeader b0 b1 s = s.setFrpPhase (.done .success) := by
  simp [evaluateHeader, hphase, h]

theorem evaluateHeader_retry (hphase : s.frp.phase = .evaluate) (h : responseIsError s.frp.kind b0 b1 = true)
    (hattempt : s.frp.attempt < maxRetries) :
    evaluateHeader b0 b1 s = { s with frp := { s.frp with phase := .compose, attempt := s.frp.attempt + 1 } } := by
  simp [evaluateHeader, hphase, h, hattempt]

theorem evaluateHeader_error (hphase : s.frp.phase = .evaluate) (h : responseIsError s.frp.kind b0 b1 = true)
    (hattempt : ¬ s.frp.attempt < maxRetries) : evaluateHeader b0 b1 s = s.setFrpPhase (.done .error) := by
  simp [evaluateHeader, hphase, h, hattempt]

/-- An error leaves Evaluate for Compose or for Done(Error), never for Done(Success). -/
theorem evaluateHeader_eq_success_iff (hphase : s.frp.phase = .evaluate) :
    evaluateHeader b0 b1 s = s.setFrpPhase (.done .success) ↔ responseIsError s.frp.kind b0 b1 = false := by
  refine ⟨fun h => ?_, evaluateHeader_success hphase⟩
  have hdone : (evaluateHeader b0 b1 s).frp.phase = .done .success := by rw [h]; rfl
  obtain ⟨hne, -⟩ | ⟨-, hok, -⟩ | ⟨-, -, -, heq⟩ | ⟨-, -, -, heq⟩ := evaluateHeader_cases b0 b1 s
  · exact absurd hphase hne
  · exact hok
  all_goals rw [heq] at hdone; cases hdone

end

/-- Settles O34: byte 0 is not the sentinel, so the header is an error of neither kind. -/
theorem rspSucceeds : Obligations.RspSucceeds := by
  intro s status length hstatus
  have hok : responseIsError s.frp.kind status length = false := responseIsError_of_ne _ _ hstatus
  exact ⟨fun hphase => congrArg _ (evaluateHeader_success hphase hok),
    fun hphase => congrArg _ (evaluateHeader_outside hphase)⟩

/-- Settles O35: `EE 01` of a write is no error, any other is one, and an error is retried up to the bound. -/
theorem rspErrRetries : Obligations.RspErrRetries := by
  intro s code
  refine ⟨fun hphase hkind hcode => ?_, fun hphase herr hattempt => ?_, fun hphase herr hattempt => ?_,
    fun hphase => congrArg _ (evaluateHeader_outside hphase)⟩
  · have hok : responseIsError s.frp.kind sentinel code = false := by rw [hkind, hcode]; rfl
    exact congrArg _ (evaluateHeader_success hphase hok)
  · exact congrArg _ (evaluateHeader_retry hphase (responseIsError_sentinel herr) (lt_maxRetries_iff.mpr hattempt))
  · have hlast : ¬ s.frp.attempt < maxRetries := by rw [lt_maxRetries_iff]; omega
    exact congrArg _ (evaluateHeader_error hphase (responseIsError_sentinel herr) hlast)

/-! ### FG's turn in Evaluate -/

section
variable {s : State}

/-- Run as RSP or as RSP_ERR, the header is classified as it lies (log 19). -/
theorem frpEvaluate_of_header {b0 b1 : Byte} (h : responseHeader s = .ok [b0, b1]) :
    frpEvaluate s = .next (evaluateHeader b0 b1 s) := by
  by_cases hb0 : b0 = sentinel
  · subst hb0
    simp only [frpEvaluate, h, decodeResponse_sentinel]
    rfl
  · simp only [frpEvaluate, h, decodeResponse_of_ne b1 [] hb0]
    rfl

/-- A write's response lies in WRESP (R180). -/
theorem responseHeader_write (h : s.frp.kind = .write) : responseHeader s = .ok [s.scr[0], s.scr[1]] := by
  simp [responseHeader, readByte, Frp.dest, h]

theorem fgTurn_evaluate {callers : List Frame} (hfg : s.fg = .frp :: callers) (hphase : s.frp.phase = .evaluate) :
    fgTurn s = frpEvaluate s := by
  simp only [fgTurn, hfg, frpStep, hphase]

end

/-- Settles O37: FG's turn classifies the two bytes of WRESP, and only success ends in Done(Success). -/
theorem writeResponseRule : Obligations.WriteResponseRule := by
  intro s callers hfg hphase hkind
  have hturn : fgTurn s = .next (evaluateHeader s.scr[0] s.scr[1] s) :=
    (fgTurn_evaluate hfg hphase).trans (frpEvaluate_of_header (responseHeader_write hkind))
  calc fgTurn s = .next (s.setFrpPhase (.done .success))
      ↔ evaluateHeader s.scr[0] s.scr[1] s = s.setFrpPhase (.done .success) := by rw [hturn, Host.Outcome.next.injEq]
    _ ↔ responseIsError .write s.scr[0] s.scr[1] = false := by rw [evaluateHeader_eq_success_iff hphase, hkind]
    _ ↔ ¬ (s.scr[0] = sentinel ∧ s.scr[1] ≠ writeOkMark) := by rw [← responseIsError_write_iff, Bool.not_eq_true]

end Sys2Proof.Machine
end

section
/-! SUPPORT. The transport operations of the host (40_transport_ops.md), issued while FG is idle: what the port check, the
operand checks and the internal forms answer, and from these the whole result of each operation. -/

namespace Sys2Proof.Machine

section
variable {s : State} {p : Byte} {port : Port}

/-! ### Answering from an idle foreground -/

theorem State.returned_of_idle (hfg : s.fg = []) (st : Status) (v : ReturnValue) :
    s.returned st v = { s with ret := some ⟨st, v⟩ } := by
  rw [State.returned, ← hfg]

theorem State.setPort_returned_of_idle (hfg : s.fg = []) (q : Nat) (port : Port) (st : Status) (v : ReturnValue) :
    (s.setPort q port).returned st v = { s with ports := s.ports.set q port, ret := some ⟨st, v⟩ } :=
  State.returned_of_idle (s := s.setPort q port) hfg st v

theorem foreground_onPort_some {k : Port → Result} (hfg : s.fg = []) (hport : s.ports[p.toNat]? = some port) :
    foreground s (onPort p s k) = k port :=
  (foreground_idle s _ hfg).trans (onPort_some p s k port hport)

/-- A port operand that names no port is answered with InvalidParam and nothing else (R242). -/
theorem foreground_onPort_none {k : Port → Result} (hfg : s.fg = []) (hport : s.ports.length ≤ p.toNat) :
    foreground s (onPort p s k) = .next { s with ret := some ⟨.invalidParam, .none⟩ } :=
  calc foreground s (onPort p s k) = .next (s.returned .invalidParam .none) :=
        (foreground_idle s _ hfg).trans (onPort_none p s k hport)
    _ = .next { s with ret := some ⟨.invalidParam, .none⟩ } := congrArg _ (State.returned_of_idle hfg _ _)

/-! ### The operand checks -/

theorem txCheck_invalid {c : Params} {n : Nat} (h : n = 0 ∨ c.txCap < n) : txCheck c port n = .invalidParam :=
  if_pos h

theorem txCheck_busy {c : Params} {n : Nat} (hpos : n ≠ 0) (hcap : n ≤ c.txCap) (hbusy : port.tx.status = .busy) :
    txCheck c port n = .error := by
  have hlegal : ¬ (n = 0 ∨ c.txCap < n) := by omega
  rw [txCheck, if_neg hlegal, hbusy]

theorem txCheck_idle {c : Params} {n : Nat} (hpos : n ≠ 0) (hcap : n ≤ c.txCap) (hidle : port.tx.status = .idle) :
    txCheck c port n = .success := by
  have hlegal : ¬ (n = 0 ∨ c.txCap < n) := by omega
  rw [txCheck, if_neg hlegal, hidle]

theorem rxCheck_invalid {dest : Dest} {n : Half} (h : dest = Dest.null ∨ n = 0) :
    rxCheck port dest n = .invalidParam :=
  if_pos h

theorem rxCheck_busy {dest : Dest} {n : Half} (hdest : dest ≠ Dest.null) (hpos : n ≠ 0)
    (hbusy : port.rx.status = .busy) : rxCheck port dest n = .error := by
  rw [rxCheck, if_neg (not_or.mpr ⟨hdest, hpos⟩), hbusy]

theorem rxCheck_idle {dest : Dest} {n : Half} (hdest : dest ≠ Dest.null) (hpos : n ≠ 0)
    (hidle : port.rx.status = .idle) : rxCheck port dest n = .success := by
  rw [rxCheck, if_neg (not_or.mpr ⟨hdest, hpos⟩), hidle]

/-- In DMEM only address 0 is the null reference (R74). -/
theorem Dest.dmem_eq_null_iff {a : Nat} : (⟨.dmem, a⟩ : Dest) = Dest.null ↔ a = 0 := by
  simp [Dest.null]

theorem readDmem_outside {a n : Nat} (h : s.dmemTop < a + n) : readDmem s a n = .error .outsideDmem :=
  if_neg (by omega)

/-! ### The internal forms -/

theorem beginTx_success {q : Nat} {bytes : List Byte} (hport : s.ports[q]? = some port)
    (hcheck : txCheck s.params port bytes.length = .success) :
    beginTx q bytes s = (.success, s.setPort q (port.startTx bytes)) := by
  simp only [beginTx, hport, hcheck]

theorem beginRx_success {q : Nat} {dest : Dest} {n : Half} (hport : s.ports[q]? = some port)
    (hcheck : rxCheck port dest n = .success) :
    beginRx q dest n s = (.success, s.setPort q (port.startRx dest n)) := by
  simp only [beginRx, hport, hcheck]

theorem beginRx_rejected {q : Nat} {dest : Dest} {n : Half} {st : Status} (hport : s.ports[q]? = some port)
    (hcheck : rxCheck port dest n = st) (hst : st ≠ .success) : beginRx q dest n s = (st, s) := by
  subst hcheck
  simp only [beginRx, hport]

/-- The length that BEGIN_TX stores is the count it was given, when the bytes are that many. -/
theorem Port.startTx_of_length {bytes : List Byte} {n : Half} (h : bytes.length = n.toNat) :
    port.startTx bytes =
      { port with tx := { port.tx with buf := bytes ++ port.tx.buf.drop n.toNat, len := n, cur := 0, status := .busy,
                                       txeie := true },
                  txBegun := true } := by
  rw [Port.startTx, h, BitVec.ofNat_toNat, BitVec.setWidth_eq]

/-! ### BEGIN_TX and BEGIN_RX on a port -/

section
variable {src dst : Nat} {n : Half}

theorem exec_beginTx_null (hfg : s.fg = []) (hport : s.ports[p.toNat]? = some port) :
    exec (.beginTx p 0 n) s = .next { s with ret := some ⟨.invalidParam, .none⟩ } :=
  (foreground_onPort_some hfg hport).trans (congrArg _ (State.returned_of_idle hfg _ _))

theorem exec_beginTx_rejected {st : Status} (hfg : s.fg = []) (hport : s.ports[p.toNat]? = some port) (hsrc : src ≠ 0)
    (hcheck : txCheck s.params port n.toNat = st) (hst : st ≠ .success) :
    exec (.beginTx p src n) s = .next { s with ret := some ⟨st, .none⟩ } := by
  refine (foreground_onPort_some hfg hport).trans ?_
  subst hcheck
  simp only [if_neg hsrc, State.returned_of_idle hfg]

theorem exec_beginTx_outside (hfg : s.fg = []) (hport : s.ports[p.toNat]? = some port) (hsrc : src ≠ 0)
    (hcheck : txCheck s.params port n.toNat = .success) (hout : s.dmemTop < src + n.toNat) :
    exec (.beginTx p src n) s = .fault .outsideDmem := by
  refine (foreground_onPort_some hfg hport).trans ?_
  simp only [if_neg hsrc, hcheck, readDmem_outside hout]

/-- With every check passed and the source read, BEGIN_TX is its internal form. -/
theorem exec_beginTx_starts {bytes : List Byte} (hfg : s.fg = []) (hport : s.ports[p.toNat]? = some port)
    (hsrc : src ≠ 0) (hcheck : txCheck s.params port n.toNat = .success) (hread : readDmem s src n.toNat = .ok bytes) :
    exec (.beginTx p src n) s =
      .next { s with ports := s.ports.set p.toNat (port.startTx bytes), ret := some ⟨.success, .none⟩ } := by
  have hbegin : beginTx p.toNat bytes s = (.success, s.setPort p.toNat (port.startTx bytes)) :=
    beginTx_success hport (by rw [readDmem_length s src n.toNat bytes hread, hcheck])
  refine (foreground_onPort_some hfg hport).trans ?_
  simp only [if_neg hsrc, hcheck, hread, hbegin, State.setPort_returned_of_idle hfg]

theorem exec_beginRx_rejected {st : Status} (hfg : s.fg = []) (hport : s.ports[p.toNat]? = some port)
    (hcheck : rxCheck port ⟨.dmem, dst⟩ n = st) (hst : st ≠ .success) :
    exec (.beginRx p dst n) s = .next { s with ret := some ⟨st, .none⟩ } := by
  refine (foreground_idle s _ hfg).trans ?_
  rw [beginRx_rejected hport hcheck hst, State.returned_of_idle hfg]

theorem exec_beginRx_starts (hfg : s.fg = []) (hport : s.ports[p.toNat]? = some port)
    (hcheck : rxCheck port ⟨.dmem, dst⟩ n = .success) :
    exec (.beginRx p dst n) s =
      .next { s with ports := s.ports.set p.toNat (port.startRx ⟨.dmem, dst⟩ n), ret := some ⟨.success, .none⟩ } := by
  refine (foreground_idle s _ hfg).trans ?_
  rw [beginRx_success hport hcheck, State.setPort_returned_of_idle hfg]

end

/-! ### PORT_INIT on a port -/

theorem exec_portInit_resets (hfg : s.fg = []) (hport : s.ports[p.toNat]? = some port) (hinit : port.initDone = false)
    (htx : port.txBegun = false) (hrx : port.rxBegun = false) :
    exec (.portInit p) s =
      .next { s with ports := s.ports.set p.toNat port.bringUp, ret := some ⟨.success, .none⟩ } := by
  refine (foreground_onPort_some hfg hport).trans ?_
  simp [hinit, htx, hrx, State.setPort_returned_of_idle hfg]

theorem exec_portInit_second (hfg : s.fg = []) (hport : s.ports[p.toNat]? = some port) (hinit : port.initDone = true) :
    exec (.portInit p) s = .refused .secondPortInit :=
  (foreground_onPort_some hfg hport).trans (if_pos hinit)

theorem exec_portInit_late (hfg : s.fg = []) (hport : s.ports[p.toNat]? = some port) (hinit : port.initDone = false)
    (hbegun : port.txBegun = true ∨ port.rxBegun = true) : exec (.portInit p) s = .refused .latePortInit := by
  refine (foreground_onPort_some hfg hport).trans ?_
  simp [hinit, hbegun]

end

/-! ### The obligations -/

/-- Settles O9: the marks of the port (log 14) decide between the reset of its registers and the two refusals. -/
theorem portInitResets : Obligations.PortInitResets := by
  intro s p port hfg hport
  exact ⟨exec_portInit_resets hfg hport, exec_portInit_second hfg hport, exec_portInit_late hfg hport⟩

/-- Settles O10, check by check in the order of R140: the operands, the busy bit, the read of the source. -/
theorem beginTxStarts : Obligations.BeginTxStarts := by
  intro s p src n port hfg hport
  have hcount : n ≠ 0 → n.toNat ≠ 0 := by bv_omega
  refine ⟨fun hbad => ?_, fun hsrc hn hcap hbusy => ?_, fun hsrc hn hcap hidle hout => ?_,
    fun hsrc hn hcap hidle hin => ?_⟩
  · by_cases hsrc : src = 0
    · subst hsrc
      exact exec_beginTx_null hfg hport
    · have hbad : n.toNat = 0 ∨ s.params.txCap < n.toNat :=
        (hbad.resolve_left hsrc).imp_left (congrArg BitVec.toNat)
      exact exec_beginTx_rejected hfg hport hsrc (txCheck_invalid hbad) (by decide)
  · exact exec_beginTx_rejected hfg hport hsrc (txCheck_busy (hcount hn) hcap hbusy) (by decide)
  · exact exec_beginTx_outside hfg hport hsrc (txCheck_idle (hcount hn) hcap hidle) hout
  · rw [exec_beginTx_starts hfg hport hsrc (txCheck_idle (hcount hn) hcap hidle) (readDmem_ok s src n.toNat hin),
      Port.startTx_of_length (n := n) (by simp)]

/-- Settles O11, check by check in the order of R142: the operands, then the busy bit. -/
theorem beginRxStarts : Obligations.BeginRxStarts := by
  intro s p dst n port hfg hport
  have hdest : dst ≠ 0 → (⟨.dmem, dst⟩ : Dest) ≠ Dest.null := mt Dest.dmem_eq_null_iff.mp
  refine ⟨fun hbad => ?_, fun hdst hn hbusy => ?_, fun hdst hn hidle => ?_⟩
  · exact exec_beginRx_rejected hfg hport (rxCheck_invalid (hbad.imp_left Dest.dmem_eq_null_iff.mpr)) (by decide)
  · exact exec_beginRx_rejected hfg hport (rxCheck_busy (hdest hdst) hn hbusy) (by decide)
  · exact exec_beginRx_starts hfg hport (rxCheck_idle (hdest hdst) hn hidle)

/-- Settles O12: past the port check ABORT_RX always resets the receive half. -/
theorem abortRxStops : Obligations.AbortRxStops := by
  intro s p hfg
  refine ⟨fun port hport => ?_, fun hnone => foreground_onPort_none hfg hnone⟩
  have habort : abortRx p.toNat s = s.setPort p.toNat port.abortRx := by simp only [abortRx, hport]
  calc exec (.abortRx p) s = .next ((abortRx p.toNat s).returned .success .none) := foreground_onPort_some hfg hport
    _ = .next { s with ports := s.ports.set p.toNat port.abortRx, ret := some ⟨.success, .none⟩ } := by
        rw [habort, State.setPort_returned_of_idle hfg]

/-- Settles O13: past the port check each reads its status bit into the returned value. -/
theorem statusesRead : Obligations.StatusesRead := by
  intro s p hfg
  refine ⟨fun port hport => ⟨?_, ?_⟩,
    fun hnone => ⟨foreground_onPort_none hfg hnone, foreground_onPort_none hfg hnone⟩⟩
  · exact (foreground_onPort_some hfg hport).trans (congrArg _ (State.returned_of_idle hfg _ _))
  · exact (foreground_onPort_some hfg hport).trans (congrArg _ (State.returned_of_idle hfg _ _))

end Sys2Proof.Machine
end

section
/-! SUPPORT. The handler arms when their event is pending (41_transport_isr.md): what each arm answers, the port after
it written out in full, and from these the whole result of each interrupt. -/

namespace Sys2Proof.Machine

section
variable {s : State} {p : Byte} {port : Port}

/-! ### The arm of a pending event -/

theorem takeInterrupt_pending {pending : Port → Bool} {arm : Port → Result} (hport : s.ports[p.toNat]? = some port)
    (hpending : pending port = true) : takeInterrupt p s pending arm = arm port := by
  simp only [takeInterrupt, hport, if_pos hpending]

theorem exec_irqTxe_pending {b : Byte} (hport : s.ports[p.toNat]? = some port) (hpending : port.pendingTxe = true)
    (hb : port.tx.buf[port.tx.cur.toNat]? = some b) :
    exec (.irqTxe p) s = .next (s.setPort p.toNat (port.handOver b)) := by
  refine (takeInterrupt_pending hport hpending).trans ?_
  simp only [hb]

theorem exec_irqTc_pending (hport : s.ports[p.toNat]? = some port) (hpending : port.pendingTc = true) :
    exec (.irqTc p) s = .next (s.setPort p.toNat port.completeTx) :=
  takeInterrupt_pending hport hpending

theorem exec_irqRxne_error (hport : s.ports[p.toNat]? = some port) (hpending : port.pendingRxne = true)
    (herrors : port.periph.errors.any = true) :
    exec (.irqRxne p) s = .next (s.setPort p.toNat port.dropRx) :=
  (takeInterrupt_pending hport hpending).trans (if_pos herrors)

/-- Without a line error IRQ_RXNE goes on or faults as the store of the received byte does. -/
theorem exec_irqRxne_clear (hport : s.ports[p.toNat]? = some port) (hpending : port.pendingRxne = true)
    (hclear : port.periph.errors.any = false) :
    exec (.irqRxne p) s =
      match writeByte s port.rx.dest.space port.rxAddr port.periph.rdr with
      | .ok u => .next (u.setPort p.toNat port.countRx)
      | .error f => .fault f :=
  (takeInterrupt_pending hport hpending).trans (if_neg (Bool.eq_false_iff.mp hclear))

theorem exec_irqRxne_stored {u : State} (hport : s.ports[p.toNat]? = some port) (hpending : port.pendingRxne = true)
    (hclear : port.periph.errors.any = false)
    (hwrite : writeByte s port.rx.dest.space port.rxAddr port.periph.rdr = .ok u) :
    exec (.irqRxne p) s = .next (u.setPort p.toNat port.countRx) := by
  rw [exec_irqRxne_clear hport hpending hclear, hwrite]

theorem exec_irqRxne_faults {f : Fault} (hport : s.ports[p.toNat]? = some port) (hpending : port.pendingRxne = true)
    (hclear : port.periph.errors.any = false)
    (hwrite : writeByte s port.rx.dest.space port.rxAddr port.periph.rdr = .error f) :
    exec (.irqRxne p) s = .fault f := by
  rw [exec_irqRxne_clear hport hpending hclear, hwrite]

end

/-! ### Line errors -/

/-- No flag is set exactly in the clear register (R154). -/
theorem LineErrors.any_eq_false_iff {e : LineErrors} : e.any = false ↔ e = LineErrors.clear := by
  obtain ⟨fe, pe, ore, ne⟩ := e
  simp [LineErrors.any, LineErrors.clear, and_assoc]

theorem LineErrors.any_of_ne_clear {e : LineErrors} (h : e ≠ LineErrors.clear) : e.any = true :=
  Bool.eq_true_of_not_eq_false (mt LineErrors.any_eq_false_iff.mp h)

/-! ### The port after an arm -/

section
variable {port : Port}

/-- The switch from TXEIE to TCIE as one update: the enables move exactly on the last byte (D13). -/
theorem Port.handOver_eq (htxeie : port.tx.txeie = true) (b : Byte) :
    port.handOver b = { port with
      tx := { port.tx with cur := port.tx.cur + 1,
                           txeie := decide (port.tx.cur + 1 ≠ port.tx.len),
                           tcie := port.tx.tcie || decide (port.tx.cur + 1 = port.tx.len) },
      periph := { port.periph with tdr := some b, txe := false, tc := false },
      wireOut := port.wireOut ++ [b] } := by
  by_cases hlast : port.tx.cur + 1 = port.tx.len
  · simp only [Port.handOver, periphWriteData, hlast, if_true, ne_eq, not_true_eq_false, decide_false, decide_true,
      Bool.or_true]
  · simp only [Port.handOver, periphWriteData, hlast, htxeie, if_false, ne_eq, not_false_eq_true, decide_true,
      decide_false, Bool.or_false]

/-- The end of a receive as one update: RXNEIE and the status move exactly on the last byte (R154). -/
theorem Port.countRx_eq (hrxneie : port.rx.rxneie = true) (hclear : port.periph.errors = LineErrors.clear) :
    port.countRx = { port with
      rx := { port.rx with cur := port.rx.cur + 1,
                           rxneie := !decide (port.rx.cur + 1 = port.rx.len),
                           status := if decide (port.rx.cur + 1 = port.rx.len) then .idle else port.rx.status },
      periph := { port.periph with rxne := false },
      wireIn := port.wireIn ++ [(port.periph.errors, port.periph.rdr)] } := by
  by_cases hlast : port.rx.cur + 1 = port.rx.len
  · simp only [Port.countRx, periphReadStatusData, hlast, hclear, if_true, decide_true, Bool.not_true]
  · simp only [Port.countRx, periphReadStatusData, hlast, hclear, hrxneie, if_false, decide_false, Bool.not_false,
      Bool.false_eq_true]

end

/-! ### The store of a received byte -/

section
variable {s : State} {a : Nat}

theorem writeByte_dmem_inside (h : a < s.dmemTop) (b : Byte) :
    writeByte s .dmem a b = .ok { s with dmem := memWrite s.dmem a b } := if_pos h

theorem writeByte_dmem_outside (h : s.dmemTop ≤ a) (b : Byte) : writeByte s .dmem a b = .error .outsideDmem :=
  if_neg (Nat.not_lt.mpr h)

theorem writeByte_scr_inside (h : a < 5) (b : Byte) :
    writeByte s .scr a b = .ok { s with scr := s.scr.setIfInBounds a b } := if_pos h

end

/-! ### The obligations -/

/-- Settles O18: the arm hands over the byte at the cursor, and the port after it is one update. -/
theorem irqTxeHandsOver : Obligations.IrqTxeHandsOver := by
  intro s p port b hport htxeie htxe hb
  have hpending : port.pendingTxe = true := by simp [Port.pendingTxe, htxeie, htxe]
  rw [exec_irqTxe_pending hport hpending hb, Port.handOver_eq htxeie]
  rfl

/-- Settles O19: the arm of a pending completion is the update stated. -/
theorem irqTcEnds : Obligations.IrqTcEnds := by
  intro s p port hport htcie htc
  have hpending : port.pendingTc = true := by simp [Port.pendingTc, htcie, htc]
  exact exec_irqTc_pending hport hpending

/-- Settles O20: without a line error the arm does what the store of the byte does, in DMEM up to its top or in SCR. -/
theorem irqRxneStores : Obligations.IrqRxneStores := by
  intro s p port hport hrxneie hrxne hclear
  have hpending : port.pendingRxne = true := by simp [Port.pendingRxne, hrxneie, hrxne]
  have hany : port.periph.errors.any = false := LineErrors.any_eq_false_iff.mpr hclear
  have hcount := Port.countRx_eq hrxneie hclear
  refine ⟨fun hdmem hin => ?_, fun hdmem hout => ?_, fun hscr hin => ?_⟩
  · have hwrite := writeByte_dmem_inside (s := s) (a := port.rxAddr) hin port.periph.rdr
    rw [← hdmem] at hwrite
    rw [exec_irqRxne_stored hport hpending hany hwrite, hcount]
    rfl
  · have hwrite := writeByte_dmem_outside (s := s) (a := port.rxAddr) hout port.periph.rdr
    rw [← hdmem] at hwrite
    exact exec_irqRxne_faults hport hpending hany hwrite
  · have hwrite := writeByte_scr_inside (s := s) (a := port.rxAddr) hin port.periph.rdr
    rw [← hscr] at hwrite
    rw [exec_irqRxne_stored hport hpending hany hwrite, hcount]
    rfl

/-- Settles O21: any error flag sends the arm to the drop, which stores nothing. -/
theorem irqRxneDrops : Obligations.IrqRxneDrops := by
  intro s p port hport hrxneie hrxne herrors
  have hpending : port.pendingRxne = true := by simp [Port.pendingRxne, hrxneie, hrxne]
  exact exec_irqRxne_error hport hpending (LineErrors.any_of_ne_clear herrors)

end Sys2Proof.Machine
end

section
/-! SUPPORT. The Timeout Calculator and DELAY (42_timeout_delay.md): which line configurations are legal and what R160
computes on them, the ticks gone by since a sample, and from these the result of each issue and of each later test. -/

namespace Sys2Proof.Machine

/-! ### The value of COMPUTE_TIMEOUT -/

section
variable {baud word parity halves : Nat}

theorem legalLine_eq_true_iff : legalLine baud word parity halves = true ↔
    baud ≠ 0 ∧ (word = 8 ∨ word = 9) ∧ parity ≤ 1 ∧ (halves = 1 ∨ halves = 2 ∨ halves = 4) := by
  simp [legalLine, and_assoc]

/-- The four ways in which a line configuration has no meaning (D27). -/
theorem legalLine_eq_false_iff : legalLine baud word parity halves = false ↔
    baud = 0 ∨ (word ≠ 8 ∧ word ≠ 9) ∨ 1 < parity ∨ (halves ≠ 1 ∧ halves ≠ 2 ∧ halves ≠ 4) := by
  rw [← Bool.not_eq_true, legalLine_eq_true_iff]
  omega

/-- From word length 8 on, the extension bit of R160 is the difference in the rationals. -/
theorem totalBits_eq (hword : 8 ≤ word) (parity halves : Nat) :
    totalBits word parity halves = 8 + ((word : Rat) - 8) + (parity : Rat) + (halves : Rat) / 2 := by
  rw [totalBits, Nat.cast_sub hword, Nat.cast_ofNat]

theorem timeoutMillis_legal (hlegal : legalLine baud word parity halves = true) (len : Nat) (margin : Rat) :
    timeoutMillis baud word parity halves len margin =
      some ((1000 / (baud : Rat)) * (8 + ((word : Rat) - 8) + (parity : Rat) + (halves : Rat) / 2) * (len : Rat) *
        margin) := by
  obtain ⟨-, hword, -, -⟩ := legalLine_eq_true_iff.mp hlegal
  rw [timeoutMillis, if_pos hlegal, totalBits_eq (by omega)]

theorem timeoutMillis_illegal (hillegal : legalLine baud word parity halves = false) (len : Nat) (margin : Rat) :
    timeoutMillis baud word parity halves len margin = none :=
  if_neg (Bool.eq_false_iff.mp hillegal)

end

/-! ### COMPUTE_TIMEOUT and DELAY from an idle foreground -/

section
variable {s : State}

theorem exec_computeTimeout_some {baud word parity halves len : Nat} {m : Margin} {q : Rat} (hfg : s.fg = [])
    (hq : timeoutMillis baud word parity halves len m.value = some q) :
    exec (.computeTimeout baud word parity halves len m) s = .next { s with ret := some ⟨.success, .millis q⟩ } := by
  refine (foreground_idle s _ hfg).trans ?_
  simp only [hq, State.returned_of_idle hfg]

theorem exec_computeTimeout_none {baud word parity halves len : Nat} {m : Margin} (hfg : s.fg = [])
    (hq : timeoutMillis baud word parity halves len m.value = none) :
    exec (.computeTimeout baud word parity halves len m) s = .refused .illegalLineConfig := by
  refine (foreground_idle s _ hfg).trans ?_
  simp only [hq]

theorem exec_delay_zero (hfg : s.fg = []) :
    exec (.delay 0) s = .next { s with ret := some ⟨.success, .none⟩ } :=
  (foreground_idle s _ hfg).trans (congrArg _ (State.returned_of_idle hfg _ _))

theorem exec_delay_waits {n : Half} (hfg : s.fg = []) (hn : n ≠ 0) :
    exec (.delay n) s = .next { s with fg := [.delay n s.tick], ret := none } :=
  (foreground_idle s _ hfg).trans (if_neg hn)

/-! ### The test of a DELAY in progress -/

/-- Elapsed time is right across a wrap of the counter, as long as fewer than `2^32` ticks went by (R164). -/
theorem State.elapsed_of_tick {t0 : Tick} {k : Nat} (hk : k < 2 ^ 32) (htick : s.tick = t0 + BitVec.ofNat 32 k) :
    s.elapsed t0 = k := by
  rw [State.elapsed, htick, add_sub_cancel_left, BitVec.toNat_ofNat, Nat.mod_eq_of_lt hk]

section
variable {n : Half} {t0 : Tick} {callers : List Frame}

theorem fgTurn_delay_waits (hfg : s.fg = .delay n t0 :: callers) (hearly : s.elapsed t0 < n.toNat) :
    fgTurn s = .next s := by
  rw [fgTurn, hfg]
  exact if_neg (Nat.not_le.mpr hearly)

theorem fgTurn_delay_ends (hfg : s.fg = .delay n t0 :: callers) (hdue : n.toNat ≤ s.elapsed t0) :
    fgTurn s = deliver callers .success .none s := by
  rw [fgTurn, hfg]
  exact if_pos hdue

end

end

/-! ### The obligations -/

/-- Settles O15: the value exists exactly on the legal lines, and the operation hands it over or refuses. -/
theorem computeTimeoutValue : Obligations.ComputeTimeoutValue := by
  intro s baud word parity halves len m hfg
  refine ⟨fun hbaud hword hparity hhalves => ?_, fun hbad => ?_⟩
  · have hlegal := legalLine_eq_true_iff.mpr ⟨hbaud, hword, hparity, hhalves⟩
    exact exec_computeTimeout_some hfg (timeoutMillis_legal hlegal len m.value)
  · exact exec_computeTimeout_none hfg (timeoutMillis_illegal (legalLine_eq_false_iff.mpr hbad) len m.value)

/-- Settles O16: the issue by the count, each later test by the ticks gone by, which are `k` modulo the wrap. -/
theorem delayWaits : Obligations.DelayWaits := by
  refine ⟨fun s n hfg => ⟨?_, exec_delay_waits hfg⟩, fun s n t0 k hfg hk htick => ?_⟩
  · rintro rfl
    exact exec_delay_zero hfg
  · have helapsed : s.elapsed t0 = k := State.elapsed_of_tick hk htick
    exact ⟨fun hearly => fgTurn_delay_waits hfg (helapsed ▸ hearly),
      fun hdue => fgTurn_delay_ends hfg (helapsed ▸ hdue)⟩

end Sys2Proof.Machine
end

section
/-! SUPPORT. The Framed Register Protocol (43_protocol.md) from its issue to its return: which operands READ_REG,
WRITE_REG and a pass take, what each row of R171 answers in FG's turn, and the timeout that nobody reports. -/

namespace Sys2Proof.Machine

/-! ### A step that is FG's turn -/

section
variable {s : State}

theorem step_of_moves_nil (h : s.moves = []) : step s = fgTurn s := by simp only [step, nextStep, h]

theorem step_of_moves_fg {ms : List Move} (h : s.moves = .fg :: ms) : step s = fgTurn { s with moves := ms } := by
  simp only [step, nextStep, h, runMove]

theorem frpEvaluate_decoded {bytes rest : List Byte} {i : Instr} (hheader : responseHeader s = .ok bytes)
    (hdecode : decodeResponse bytes = .ok (i, rest)) : frpEvaluate s = exec i s := by
  simp only [frpEvaluate, hheader, hdecode]

theorem fgTurn_evaluate_encoded {callers : List Frame} {size : Nat} {i : Instr} (hfg : s.fg = .frp :: callers)
    (hphase : s.frp.phase = .evaluate) (hwf : i.wf size = true) (hi : i.channel = .response)
    (hheader : responseHeader s = .ok (encode size i)) : fgTurn s = exec i s := by
  have hdecode : decodeResponse (encode size i) = .ok (i, []) := by
    simpa only [List.append_nil] using decodeResponse_encode [] hwf hi
  exact (fgTurn_evaluate hfg hphase).trans (frpEvaluate_decoded hheader hdecode)

end

/-- Settles O8: the header decodes to the instruction, and the move consumed is nothing Evaluate looks at. -/
theorem stepRunsResponseHeader : Obligations.StepRunsResponseHeader := by
  intro s i callers hwf hi hfg hphase hheader
  refine ⟨fun hmoves => ?_, fun ms hmoves => ?_⟩
  · exact (step_of_moves_nil hmoves).trans (fgTurn_evaluate_encoded hfg hphase hwf hi hheader)
  · exact (step_of_moves_fg hmoves).trans
      (fgTurn_evaluate_encoded (s := { s with moves := ms }) hfg hphase hwf hi hheader)

/-! ### Issue -/

section
variable {s : State} {p addr len : Byte} {a : Nat}

theorem frpValid_dmem_iff :
    frpValid s p len (.dmem a) = true ↔ p.toNat < s.nPorts ∧ a ≠ 0 ∧ len ≠ 0 := by
  simp only [frpValid, State.hasPort, Bool.and_eq_true, decide_eq_true_eq, ne_eq, FrpBuf.dmem.injEq,
    and_assoc]

theorem frpValid_dmem_illegal (h : a = 0 ∨ len = 0) : frpValid s p len (.dmem a) = false := by
  rw [← Bool.not_eq_true, frpValid_dmem_iff]
  tauto

theorem exec_readReg_idle (hfg : s.fg = []) :
    exec (.readReg p addr len a) s = .next (issueRead p addr len (.dmem a) [] s.started) :=
  foreground_idle s _ hfg

theorem exec_writeReg_idle (hfg : s.fg = []) :
    exec (.writeReg p addr len a) s = .next (issueWrite p addr len (.dmem a) [] s.started) :=
  foreground_idle s _ hfg

section
variable {buf : FrpBuf} {callers : List Frame}

theorem issueRead_legal (h : frpValid s p len buf = true) :
    issueRead p addr len buf callers s =
      { s with frp := s.frp.issued .read p addr len buf, fg := .frp :: callers } := if_pos h

theorem issueWrite_legal (h : frpValid s p len buf = true) :
    issueWrite p addr len buf callers s =
      drawWresp { s with frp := s.frp.issued .write p addr len buf, fg := .frp :: callers } := if_pos h

theorem issueRead_illegal (h : frpValid s p len buf = false) :
    issueRead p addr len buf callers s = (s.setFrpPhase (.done .invalidParam)).setFg (.frp :: callers) :=
  if_neg (Bool.eq_false_iff.mp h)

theorem issueWrite_illegal (h : frpValid s p len buf = false) :
    issueWrite p addr len buf callers s = (s.setFrpPhase (.done .invalidParam)).setFg (.frp :: callers) :=
  if_neg (Bool.eq_false_iff.mp h)

theorem issuePass_illegal {k : Pass} {target : Byte} (h : passValid s k p target = false) :
    issuePass k p target callers s = (s.setDcmPhase (.done .invalidParam)).setFg (.dcm k :: callers) :=
  if_neg (Bool.eq_false_iff.mp h)

end

theorem passValid_selectPage_illegal {page : Byte} (h0 : page ≠ 0) (h1 : page ≠ 1) :
    passValid s .selectPage p page = false := by
  simp only [passValid, validPage, beq_eq_false_iff_ne.mpr h0, beq_eq_false_iff_ne.mpr h1, Bool.or_false,
    Bool.and_false]

theorem passValid_setMode_illegal {mode : Byte} (h : mode ∉ s.params.modeSet) :
    passValid s .setMode p mode = false := by
  simp [passValid, validMode, h]

end

/-- Settles O25: legal operands pass the check of the issue, which then is the update stated. -/
theorem registerAccessesIssue : Obligations.RegisterAccessesIssue := by
  intro s p addr len a hfg hp ha hlen
  have hvalid : frpValid s.started p len (.dmem a) = true := frpValid_dmem_iff.mpr ⟨hp, ha, hlen⟩
  refine ⟨?_, Config.freeByte s.draws, Config.freeByte (s.draws + 1), ?_⟩
  · exact (exec_readReg_idle hfg).trans (congrArg _ (issueRead_legal hvalid))
  · exact (exec_writeReg_idle hfg).trans (congrArg _ (issueWrite_legal hvalid))

/-! ### The rows of R171 in FG's turn -/

section
variable {s : State} {callers : List Frame}

theorem fgTurn_compose (hfg : s.fg = .frp :: callers) (hphase : s.frp.phase = .compose) :
    fgTurn s = frpCompose s := by
  simp only [fgTurn, hfg, frpStep, hphase]

theorem fgTurn_transmitting (hfg : s.fg = .frp :: callers) (hphase : s.frp.phase = .transmitting) :
    fgTurn s = frpTransmitting s := by
  simp only [fgTurn, hfg, frpStep, hphase]

theorem fgTurn_armReceive (hfg : s.fg = .frp :: callers) (hphase : s.frp.phase = .armReceive) :
    fgTurn s = frpArmReceive s := by
  simp only [fgTurn, hfg, frpStep, hphase]

theorem fgTurn_startupDelay (hfg : s.fg = .frp :: callers) (hphase : s.frp.phase = .startupDelay) :
    fgTurn s = frpStartupDelay s := by
  simp only [fgTurn, hfg, frpStep, hphase]

theorem fgTurn_awaitingResponse (hfg : s.fg = .frp :: callers) (hphase : s.frp.phase = .awaitingResponse) :
    fgTurn s = frpAwaitingResponse s := by
  simp only [fgTurn, hfg, frpStep, hphase]

/-- Row Done: the status goes to the caller and the sequencer is Idle (R171, R170). -/
theorem fgTurn_frp_done {st : Status} (hfg : s.fg = .frp :: callers) (hphase : s.frp.phase = .done st) :
    fgTurn s = deliver callers st .none (s.setFrpPhase .idle) := by
  simp only [fgTurn, hfg, frpStep, hphase]

/-- Row Done of R190: a pass hands its status and its value to the caller, and the sequencer is Idle. -/
theorem fgTurn_dcm_done {k : Pass} {st : Status} (hfg : s.fg = .dcm k :: callers) (hphase : s.dcm.phase = .done st) :
    fgTurn s = deliver callers st (passValue k st s) (s.setDcmPhase .idle) := by
  simp only [fgTurn, hfg, dcmStep, hphase]

end

/-! ### Illegal operands -/

section
variable {s : State} {st : Status}

/-- The sequencer that was sent to Done at the issue returns that status and leaves nothing else behind (R241). -/
theorem fgTurn_frp_rejected (hfg : s.fg = []) :
    fgTurn ((s.started.setFrpPhase (.done st)).setFg [.frp]) =
      .next { s with frp := { s.frp with phase := .idle }, ret := some ⟨st, .none⟩ } := by
  refine (fgTurn_frp_done rfl rfl).trans ?_
  rw [deliver, State.returned, ← hfg]
  rfl

/-- RESTORE_MODE passes the status of its SET_MODE up unchanged (R200). -/
theorem fgTurn_dcm_rejected {k : Pass} {callers : List Frame} (hcallers : callers ∈ [[], [Frame.restore]])
    (hst : st ≠ .success) (hfg : s.fg = []) :
    fgTurn ((s.started.setDcmPhase (.done st)).setFg (.dcm k :: callers)) =
      .next { s with dcm := { s.dcm with phase := .idle }, ret := some ⟨st, .none⟩ } := by
  have hvalue : ∀ u, passValue k st u = .none := by
    intro u
    unfold passValue
    split
    · exact absurd rfl hst
    · rfl
  have hdeliver : ∀ u, deliver callers st .none u = .next (u.returned st .none) := by
    simp only [List.mem_cons, List.not_mem_nil, or_false] at hcallers
    obtain rfl | rfl := hcallers <;> intro u <;> rfl
  refine (fgTurn_dcm_done rfl rfl).trans ?_
  rw [hvalue, hdeliver, State.returned, ← hfg]
  rfl

end

/-- Settles O26: the issue sends the sequencer to Done(InvalidParam), and the next turn returns it. -/
theorem illegalOperandsRejected : Obligations.IllegalOperandsRejected := by
  intro s p addr len x a hfg
  refine ⟨fun hbad i hi => ?_, fun h0 h1 => ?_, fun hmode i hi => ?_⟩
  · have hvalid : frpValid s.started p len (.dmem a) = false := frpValid_dmem_illegal hbad
    refine ⟨_, ?_, fgTurn_frp_rejected hfg⟩
    simp only [List.mem_cons, List.not_mem_nil, or_false] at hi
    obtain rfl | rfl := hi
    · exact (exec_readReg_idle hfg).trans (congrArg _ (issueRead_illegal hvalid))
    · exact (exec_writeReg_idle hfg).trans (congrArg _ (issueWrite_illegal hvalid))
  · have hvalid : passValid s.started .selectPage p x = false := passValid_selectPage_illegal h0 h1
    exact ⟨_, (foreground_idle s _ hfg).trans (congrArg _ (issuePass_illegal hvalid)),
      fgTurn_dcm_rejected (by simp) (by decide) hfg⟩
  · have hvalid : passValid s.started .setMode p x = false := passValid_setMode_illegal hmode
    simp only [List.mem_cons, List.not_mem_nil, or_false] at hi
    obtain rfl | rfl := hi <;>
      exact ⟨_, (foreground_idle s _ hfg).trans (congrArg _ (issuePass_illegal hvalid)),
        fgTurn_dcm_rejected (by simp) (by decide) hfg⟩

/-! ### Compose -/

section
variable {s : State} {port : Port}

/-- The frame of a read (R101). -/
theorem frpFrame_read (h : s.frp.kind = .read) : frpFrame s = .ok (rdFrame s.frp.addr s.frp.len) := by
  simp only [frpFrame, h]

/-- The frame of a write of the DCM, which has one byte (R102, R178). -/
theorem frpFrame_write_internal (h : s.frp.kind = .write) (hbuf : s.frp.buf = .internal) :
    frpFrame s = .ok (wrFrame s.frp.addr s.frp.len [s.dcm.target]) := by
  simp only [frpFrame, h, frpPayload, hbuf]

section
variable {a : Nat}

/-- The frame of a write of the host carries the bytes of its buffer (R102, R107). -/
theorem frpFrame_write_dmem (h : s.frp.kind = .write) (hbuf : s.frp.buf = .dmem a)
    (hin : a + s.frp.len.toNat ≤ s.dmemTop) :
    frpFrame s = .ok (wrFrame s.frp.addr s.frp.len
      ((List.range s.frp.len.toNat).map fun i => memRead s.dmem (a + i))) := by
  simp only [frpFrame, h, frpPayload, hbuf, readDmem_ok s a _ hin]

theorem frpFrame_write_outside (h : s.frp.kind = .write) (hbuf : s.frp.buf = .dmem a)
    (hout : s.dmemTop < a + s.frp.len.toNat) : frpFrame s = .error .outsideDmem := by
  simp only [frpFrame, h, frpPayload, hbuf, readDmem_outside hout]

end

theorem frpFrame_ne_nil {bytes : List Byte} (h : frpFrame s = .ok bytes) : bytes.length ≠ 0 := by
  unfold frpFrame at h
  split at h
  · cases h
    simp [rdFrame]
  · split at h <;> cases h
    simp [wrFrame]

theorem beginTx_rejected {q : Nat} {bytes : List Byte} {st : Status} (hport : s.ports[q]? = some port)
    (hcheck : txCheck s.params port bytes.length = st) (hst : st ≠ .success) : beginTx q bytes s = (st, s) := by
  subst hcheck
  simp only [beginTx, hport]

theorem frpCompose_fault {f : Fault} (hframe : frpFrame s = .error f) : frpCompose s = .fault f := by
  simp only [frpCompose, hframe]

section
variable {bytes : List Byte} (hframe : frpFrame s = .ok bytes) (hport : s.ports[s.frp.port.toNat]? = some port)
include hframe hport

theorem frpCompose_rejected {st : Status} (hcheck : txCheck s.params port bytes.length = st) (hst : st ≠ .success) :
    frpCompose s = .next (s.setFrpPhase (.done st)) := by
  simp only [frpCompose, hframe, beginTx_rejected hport hcheck hst]

theorem frpCompose_starts (hcheck : txCheck s.params port bytes.length = .success) :
    frpCompose s = .next ((s.setPort s.frp.port.toNat (port.startTx bytes)).setFrpPhase .transmitting) := by
  simp only [frpCompose, hframe, beginTx_success hport hcheck]

end

end

/-- Settles O29: the three frames, then the checks of BEGIN_TX in their order; a payload outside DMEM has no frame. -/
theorem frpComposes : Obligations.FrpComposes := by
  intro s callers port hfg hphase hport
  rw [fgTurn_compose hfg hphase]
  refine ⟨fun bytes hbytes => ?_,
    fun a hkind hbuf hout => frpCompose_fault (frpFrame_write_outside hkind hbuf hout)⟩
  have hframe : frpFrame s = .ok bytes := by
    obtain ⟨hkind, rfl⟩ | ⟨hkind, hbuf, rfl⟩ | ⟨a, hkind, hbuf, hin, rfl⟩ := hbytes
    · exact frpFrame_read hkind
    · exact frpFrame_write_internal hkind hbuf
    · exact frpFrame_write_dmem hkind hbuf hin
  have hpos : bytes.length ≠ 0 := frpFrame_ne_nil hframe
  exact ⟨fun hlong => frpCompose_rejected hframe hport (txCheck_invalid (.inr hlong)) (by decide),
    fun hcap hbusy => frpCompose_rejected hframe hport (txCheck_busy hpos hcap hbusy) (by decide),
    fun hcap hidle => frpCompose_starts hframe hport (txCheck_idle hpos hcap hidle)⟩

/-! ### Transmitting and Done -/

section
variable {s : State} {port : Port} (hport : s.ports[s.frp.port.toNat]? = some port)
include hport

theorem frpTransmitting_waits (hbusy : port.tx.status = .busy) : frpTransmitting s = .next s := by
  simp only [frpTransmitting, hport, hbusy]

theorem frpTransmitting_ends (hidle : port.tx.status = .idle) :
    frpTransmitting s = .next (s.setFrpPhase .armReceive) := by
  simp only [frpTransmitting, hport, hidle]

end

/-- Settles O30: the status bit decides in Transmitting, and Done of the host delivers to nobody below. -/
theorem frpWaitsAndReturns : Obligations.FrpWaitsAndReturns := by
  refine ⟨fun s callers port hfg hphase hport => ?_, fun s st hfg hphase => fgTurn_frp_done hfg hphase⟩
  rw [fgTurn_transmitting hfg hphase]
  exact ⟨frpTransmitting_waits hport, frpTransmitting_ends hport⟩

/-! ### ArmReceive -/

section
variable {s : State} {port : Port}

theorem Frp.dest_read_dmem {r : Frp} {a : Nat} (h : r.kind = .read) (hbuf : r.buf = .dmem a) :
    r.dest = ⟨.dmem, a⟩ := by
  simp only [Frp.dest, h, hbuf]

theorem Frp.dest_read_internal {r : Frp} (h : r.kind = .read) (hbuf : r.buf = .internal) : r.dest = ⟨.scr, 2⟩ := by
  simp only [Frp.dest, h, hbuf]

theorem Frp.dest_write {r : Frp} (h : r.kind = .write) : r.dest = ⟨.scr, 0⟩ := by simp only [Frp.dest, h]

/-- Only the host can ask for a response at the null reference. -/
theorem Frp.dest_ne_null {r : Frp} (h : r.kind = .read → r.buf ≠ .dmem 0) : r.dest ≠ Dest.null := by
  cases hkind : r.kind with
  | write => simp [Frp.dest_write hkind, Dest.null]
  | read =>
    cases hbuf : r.buf with
    | internal => simp [Frp.dest_read_internal hkind hbuf, Dest.null]
    | dmem a =>
      rw [Frp.dest_read_dmem hkind hbuf, Ne, Dest.dmem_eq_null_iff]
      rintro rfl
      exact h hkind hbuf

theorem Frp.responseCount_read {r : Frp} (h : r.kind = .read) : r.responseCount = 2 + r.len.toNat := by
  simp only [Frp.responseCount, h]

theorem Frp.responseCount_write {r : Frp} (h : r.kind = .write) : r.responseCount = 2 := by
  simp only [Frp.responseCount, h]

/-- The count of R110 is at least 2 and fits `LEN_W`. -/
theorem Frp.responseCount_ne_zero (r : Frp) : (BitVec.ofNat 16 r.responseCount : Half) ≠ 0 := by
  cases hkind : r.kind with
  | write => simp [Frp.responseCount_write hkind]
  | read =>
    have hlen := r.len.isLt
    rw [Frp.responseCount_read hkind]
    bv_omega

section
variable (hport : s.ports[s.frp.port.toNat]? = some port)
include hport

theorem frpArmReceive_rejected {st : Status}
    (hcheck : rxCheck port s.frp.dest (BitVec.ofNat 16 s.frp.responseCount) = st) (hst : st ≠ .success) :
    frpArmReceive s = .next (s.setFrpPhase (.done st)) := by
  simp only [frpArmReceive, beginRx_rejected hport hcheck hst]

theorem frpArmReceive_starts (hcheck : rxCheck port s.frp.dest (BitVec.ofNat 16 s.frp.responseCount) = .success) :
    frpArmReceive s =
      .next { s with frp := { s.frp with phase := .startupDelay, t0 := s.tick },
                     ports := s.ports.set s.frp.port.toNat
                       (port.startRx s.frp.dest (BitVec.ofNat 16 s.frp.responseCount)) } := by
  simp only [frpArmReceive, beginRx_success hport hcheck, State.setPort]

end

end

/-- Settles O31: the three destinations with their counts are legal operands of BEGIN_RX, so its busy check decides. -/
theorem frpArmsReceive : Obligations.FrpArmsReceive := by
  intro s callers port dest n hfg hphase hport hcase
  obtain ⟨hdest, hcount, hbuf⟩ :
      s.frp.dest = dest ∧ s.frp.responseCount = n ∧ (s.frp.kind = .read → s.frp.buf ≠ .dmem 0) := by
    obtain ⟨a, hkind, hbuf, ha, rfl, rfl⟩ | ⟨hkind, hbuf, rfl, rfl⟩ | ⟨hkind, rfl, rfl⟩ := hcase
    · exact ⟨Frp.dest_read_dmem hkind hbuf, Frp.responseCount_read hkind, fun _ => by simp [hbuf, ha]⟩
    · exact ⟨Frp.dest_read_internal hkind hbuf, Frp.responseCount_read hkind, fun _ => by simp [hbuf]⟩
    · exact ⟨Frp.dest_write hkind, Frp.responseCount_write hkind, fun h => by simp [hkind] at h⟩
  have hlegal := Frp.dest_ne_null hbuf
  have hpos := s.frp.responseCount_ne_zero
  rw [fgTurn_armReceive hfg hphase]
  subst hdest hcount
  exact ⟨fun hbusy => frpArmReceive_rejected hport (rxCheck_busy hlegal hpos hbusy) (by decide),
    fun hidle => frpArmReceive_starts hport (rxCheck_idle hlegal hpos hidle)⟩

/-! ### StartupDelay -/

section
variable {s : State} {port : Port}

theorem responseTicks_legal {line : LineConfig}
    (h : legalLine line.baudRate line.wordLength line.parityEnabled line.stopHalves = true) (n : Nat) :
    responseTicks line n =
      some ((1000 / (line.baudRate : Rat)) *
        (8 + ((line.wordLength : Rat) - 8) + (line.parityEnabled : Rat) + (line.stopHalves : Rat) / 2) * (n : Rat) *
        5).ceil.toNat := by
  rw [responseTicks, timeoutMillis_legal h, Option.map_some]
  rfl

theorem responseTicks_illegal {line : LineConfig}
    (h : legalLine line.baudRate line.wordLength line.parityEnabled line.stopHalves = false) (n : Nat) :
    responseTicks line n = none := by
  rw [responseTicks, timeoutMillis_illegal h, Option.map_none]

theorem frpStartupDelay_waits (h : s.elapsed s.frp.t0 < startupTicks s.frp.attempt) : frpStartupDelay s = .next s :=
  if_pos h

section
variable (hdue : startupTicks s.frp.attempt ≤ s.elapsed s.frp.t0) (hport : s.ports[s.frp.port.toNat]? = some port)
include hdue hport

theorem frpStartupDelay_opens {k : Nat} (hticks : responseTicks port.line s.frp.responseCount = some k) :
    frpStartupDelay s =
      .next { s with frp := { s.frp with phase := .awaitingResponse, t0 := s.tick, tmo := k } } := by
  simp only [frpStartupDelay, if_neg (Nat.not_lt.mpr hdue), hport, hticks]

theorem frpStartupDelay_refuses (hticks : responseTicks port.line s.frp.responseCount = none) :
    frpStartupDelay s = .refused .illegalLineConfig := by
  simp only [frpStartupDelay, if_neg (Nat.not_lt.mpr hdue), hport, hticks]

end

end

/-- Settles O32: the elapsed ticks are `k` modulo the wrap, and past the delay the line decides. -/
theorem frpDelaysStart : Obligations.FrpDelaysStart := by
  intro s callers port k n hfg hphase hport hk htick hn
  have helapsed : s.elapsed s.frp.t0 = k := State.elapsed_of_tick hk htick
  have hcount : s.frp.responseCount = n := by
    obtain ⟨hkind, rfl⟩ | ⟨hkind, rfl⟩ := hn
    · exact Frp.responseCount_read hkind
    · exact Frp.responseCount_write hkind
  rw [fgTurn_startupDelay hfg hphase]
  subst helapsed hcount
  exact ⟨frpStartupDelay_waits, fun hdue =>
    ⟨fun hlegal => frpStartupDelay_opens hdue hport (responseTicks_legal hlegal _),
     fun hillegal => frpStartupDelay_refuses hdue hport (responseTicks_illegal hillegal _)⟩⟩

/-! ### AwaitingResponse -/

section
variable {s : State} {port : Port} (hport : s.ports[s.frp.port.toNat]? = some port)
include hport

theorem frpAwaitingResponse_received (hidle : port.rx.status = .idle) :
    frpAwaitingResponse s = .next (s.setFrpPhase .evaluate) := by
  simp only [frpAwaitingResponse, hport, hidle]

theorem frpAwaitingResponse_waits (hbusy : port.rx.status = .busy) (hearly : s.elapsed s.frp.t0 < s.frp.tmo) :
    frpAwaitingResponse s = .next s := by
  simp only [frpAwaitingResponse, hport, hbusy, if_pos hearly]

/-- The timeout aborts the receive and records nothing (R176). -/
theorem frpAwaitingResponse_aborts (hbusy : port.rx.status = .busy) (hdue : s.frp.tmo ≤ s.elapsed s.frp.t0) :
    frpAwaitingResponse s = .next ((s.setPort s.frp.port.toNat port.abortRx).setFrpPhase .evaluate) := by
  simp only [frpAwaitingResponse, hport, hbusy, if_neg (Nat.not_lt.mpr hdue), abortRx]

end

/-- Settles O33: the status first, then the ticks gone by, which are `k` modulo the wrap. -/
theorem frpAwaitsResponse : Obligations.FrpAwaitsResponse := by
  intro s callers port k hfg hphase hport hk htick
  have helapsed : s.elapsed s.frp.t0 = k := State.elapsed_of_tick hk htick
  rw [fgTurn_awaitingResponse hfg hphase]
  subst helapsed
  exact ⟨frpAwaitingResponse_received hport, frpAwaitingResponse_waits hport, frpAwaitingResponse_aborts hport⟩

/-! ### Evaluate -/

section
variable {s : State}

theorem responseIsError_read_iff {b0 b1 : Byte} : responseIsError .read b0 b1 = true ↔ b0 = sentinel := by
  simp [responseIsError]

/-- A read of the DCM has its response in DCMBUF (R172). -/
theorem responseHeader_read_internal (h : s.frp.kind = .read) (hbuf : s.frp.buf = .internal) :
    responseHeader s = .ok [s.scr[2], s.scr[3]] := by
  simp [responseHeader, readByte, Frp.dest_read_internal h hbuf]

section
variable {a : Nat}

/-- A read of the host has its response in the host's buffer (R172). -/
theorem responseHeader_read_dmem (h : s.frp.kind = .read) (hbuf : s.frp.buf = .dmem a) (hin : a < s.dmemTop) :
    responseHeader s = .ok [memRead s.dmem a, memRead s.dmem (a + 1)] := by
  simp [responseHeader, readByte, Frp.dest_read_dmem h hbuf, hin]

theorem responseHeader_read_outside (h : s.frp.kind = .read) (hbuf : s.frp.buf = .dmem a) (hout : s.dmemTop ≤ a) :
    responseHeader s = .error .outsideDmem := by
  simp only [responseHeader, Frp.dest_read_dmem h hbuf, readByte, if_neg (Nat.not_lt.mpr hout)]

end

theorem frpEvaluate_fault {f : Fault} (h : responseHeader s = .error f) : frpEvaluate s = .fault f := by
  simp only [frpEvaluate, h]

end

/-- Settles O36: whichever of the three destinations it is, the header there is an error exactly when `bad` holds. -/
theorem evaluateClassifies : Obligations.EvaluateClassifies := by
  intro s callers hfg hphase
  rw [fgTurn_evaluate hfg hphase]
  refine ⟨fun bad hcase => ?_,
    fun a hkind hbuf hout => frpEvaluate_fault (responseHeader_read_outside hkind hbuf hout)⟩
  obtain ⟨b0, b1, hheader, hbad⟩ :
      ∃ b0 b1, responseHeader s = .ok [b0, b1] ∧ (bad ↔ responseIsError s.frp.kind b0 b1 = true) := by
    obtain ⟨a, hkind, hbuf, hin, hbad⟩ | ⟨hkind, hbuf, hbad⟩ | ⟨hkind, hbad⟩ := hcase
    · exact ⟨_, _, responseHeader_read_dmem hkind hbuf hin, by rw [hkind, responseIsError_read_iff]; exact hbad⟩
    · exact ⟨_, _, responseHeader_read_internal hkind hbuf, by rw [hkind, responseIsError_read_iff]; exact hbad⟩
    · exact ⟨_, _, responseHeader_write hkind, by rw [hkind, responseIsError_write_iff]; exact hbad⟩
  rw [frpEvaluate_of_header hheader, hbad, Bool.not_eq_true]
  refine ⟨fun hok => ?_, fun herr hattempt => ?_, fun herr hattempt => ?_⟩
  · exact congrArg _ (evaluateHeader_success hphase hok)
  · exact congrArg _ (evaluateHeader_retry hphase herr (lt_maxRetries_iff.mpr hattempt))
  · exact congrArg _ (evaluateHeader_error hphase herr (mt lt_maxRetries_iff.mp (Nat.not_lt.mpr hattempt)))

/-- A read of the host whose buffer does not begin with the sentinel ends in Success, whoever wrote that byte (R105). -/
theorem fgTurn_evaluate_returns {s : State} {a : Nat} (hfg : s.fg = [.frp]) (hphase : s.frp.phase = .evaluate)
    (hkind : s.frp.kind = .read) (hbuf : s.frp.buf = .dmem a) (hin : a < s.dmemTop)
    (hbyte : memRead s.dmem a ≠ sentinel) :
    fgTurn s = .next (s.setFrpPhase (.done .success)) ∧
      fgTurn (s.setFrpPhase (.done .success)) = .next ((s.setFrpPhase .idle).returned .success .none) := by
  refine ⟨?_, fgTurn_frp_done (s := s.setFrpPhase (.done .success)) hfg rfl⟩
  calc fgTurn s = frpEvaluate s := fgTurn_evaluate hfg hphase
    _ = .next (evaluateHeader (memRead s.dmem a) (memRead s.dmem (a + 1)) s) :=
        frpEvaluate_of_header (responseHeader_read_dmem hkind hbuf hin)
    _ = .next (s.setFrpPhase (.done .success)) :=
        congrArg _ (evaluateHeader_success hphase (responseIsError_of_ne _ _ hbyte))

/-- Settles O38, turn by turn: the abort reports nothing, Evaluate finds the old byte of the buffer, Done returns. -/
theorem silentReadSucceeds : Obligations.SilentReadSucceeds := by
  intro s port a k hfg hphase hkind hbuf hport hbusy hk htick hdue hin hbyte
  have helapsed : s.elapsed s.frp.t0 = k := State.elapsed_of_tick hk htick
  have habort := (fgTurn_awaitingResponse hfg hphase).trans (frpAwaitingResponse_aborts hport hbusy (helapsed ▸ hdue))
  obtain ⟨hevaluate, hreturn⟩ :=
    fgTurn_evaluate_returns (s := (s.setPort s.frp.port.toNat port.abortRx).setFrpPhase .evaluate) hfg rfl hkind hbuf
      hin hbyte
  exact ⟨_, _, habort, hevaluate, hreturn⟩

end Sys2Proof.Machine
end

section
/-! SUPPORT. The reference device's registers (45_environment.md): a store to plain registers byte after byte, what it
leaves behind in memory, and the read that gives the bytes back. -/

namespace Sys2Proof.Machine

/-! ### Keys and addresses -/

/-- A key holds its address in the low eight bits, whatever the page. -/
theorem eq_of_regKey_eq {g g' : Nat} {a b : Byte} (h : regKey g a = regKey g' b) : a = b := by
  have ha := a.isLt
  have hb := b.isLt
  unfold regKey at h
  exact BitVec.eq_of_toNat_eq (by omega)

theorem regKey_ne {g g' : Nat} {a b : Byte} (h : a ≠ b) : regKey g a ≠ regKey g' b := mt eq_of_regKey_eq h

theorem add_ofNat_succ (a : Byte) (i : Nat) : a + BitVec.ofNat 8 (i + 1) = a + 1 + BitVec.ofNat 8 i := by
  rw [Nat.add_comm, BitVec.ofNat_add, ← BitVec.add_assoc]
  rfl

/-- Fewer than 256 steps do not come back to the address they started from. -/
theorem ne_add_one_add_ofNat (a : Byte) {i : Nat} (hi : i + 1 < 256) : a ≠ a + 1 + BitVec.ofNat 8 i := by bv_omega

/-! ### A store to plain registers -/

/-- A store at `a` only changes the register there: it is not PAGE_REG or MODE_REG, and no gate forbids it (R224). -/
structure Device.PlainAt (c : Params) (d : Device) (a : Byte) : Prop where
  ne_pageReg : a ≠ c.pageReg
  ne_modeReg : a ≠ c.modeReg
  ungated : (d.page, a) ∈ c.cfgOnly → d.mode c = c.modeConfig

/-- The device after a store of `v` to the plain register `a`. -/
def Device.store (d : Device) (a v : Byte) : Device := { d with regs := memWrite d.regs (regKey d.page a) v }

/-- Memory `regs` holds `payload` from register `a` on in the page of `d`, and elsewhere what `d` holds. -/
structure Device.Stores (d : Device) (a : Byte) (payload : List Byte) (regs : Memory) : Prop where
  inside : ∀ i < payload.length, some (memRead regs (regKey d.page (a + BitVec.ofNat 8 i))) = payload[i]?
  outside : ∀ k, (∀ i < payload.length, k ≠ regKey d.page (a + BitVec.ofNat 8 i)) → memRead regs k = memRead d.regs k

section
variable {c : Params} {d : Device} {a v : Byte}

theorem Device.writeReg_plain (h : d.PlainAt c a) : d.writeReg c a v = some (d.store a v) := by
  have hgate : (c.cfgOnly.contains (d.page, a) && d.mode c != c.modeConfig) = false := by
    simpa using h.ungated
  simp only [Device.writeReg, hgate, h.ne_pageReg, h.ne_modeReg, if_false, Bool.false_eq_true]
  rfl

theorem Device.readReg_plain (hpage : a ≠ c.pageReg) (hmode : a ≠ c.modeReg) :
    d.readReg c a = memRead d.regs (regKey d.page a) := by
  simp only [Device.readReg, hpage, hmode, if_false]

theorem Device.mode_store (h : a ≠ c.modeReg) : (d.store a v).mode c = d.mode c :=
  memRead_memWrite_ne _ _ _ _ (regKey_ne h.symm)

/-- A plain store opens and closes no gate. -/
theorem Device.PlainAt.store {b : Byte} (h : d.PlainAt c b) (ha : a ≠ c.modeReg) : (d.store a v).PlainAt c b :=
  ⟨h.ne_pageReg, h.ne_modeReg, fun hgate => (Device.mode_store ha).trans (h.ungated hgate)⟩

theorem Device.Stores.nil : d.Stores a [] d.regs := ⟨fun _ hi => absurd hi (Nat.not_lt_zero _), fun _ _ => rfl⟩

/-- The bytes after the first do not reach its register again, since a payload has at most 255 of them (R100). -/
theorem Device.Stores.cons {vs : List Byte} {regs : Memory} (h : (d.store a v).Stores (a + 1) vs regs)
    (hlen : vs.length < 256) : d.Stores a (v :: vs) regs := by
  have hfirst : memRead regs (regKey d.page a) = v := by
    have hne : ∀ i < vs.length, regKey d.page a ≠ regKey d.page (a + 1 + BitVec.ofNat 8 i) :=
      fun i hi => regKey_ne (ne_add_one_add_ofNat a (by omega))
    exact (h.outside _ hne).trans (memRead_memWrite_self _ _ _)
  refine ⟨fun i hi => ?_, fun k hk => ?_⟩
  · cases i with
    | zero => simp [hfirst]
    | succ i =>
      rw [add_ofNat_succ, List.getElem?_cons_succ]
      exact h.inside i (Nat.lt_of_succ_lt_succ hi)
  · have hhead : k ≠ regKey d.page a := by simpa using hk 0 (Nat.succ_pos _)
    have htail : ∀ i < vs.length, k ≠ regKey d.page (a + 1 + BitVec.ofNat 8 i) := fun i hi => by
      rw [← add_ofNat_succ]
      exact hk (i + 1) (Nat.succ_lt_succ hi)
    exact (h.outside k htail).trans (memRead_memWrite_ne _ _ _ _ hhead)

/-- A payload of at most 256 bytes to plain registers is stored whole and changes nothing but their memory (R224). -/
theorem Device.writeRegs_plain {payload : List Byte} (hlen : payload.length ≤ 256)
    (hplain : ∀ i < payload.length, d.PlainAt c (a + BitVec.ofNat 8 i)) :
    ∃ regs, d.writeRegs c a payload = some { d with regs := regs } ∧ d.Stores a payload regs := by
  induction payload generalizing d a with
  | nil => exact ⟨d.regs, rfl, .nil⟩
  | cons v vs ih =>
    have hhead : d.PlainAt c a := by simpa using hplain 0 (Nat.succ_pos _)
    have htail : ∀ i < vs.length, (d.store a v).PlainAt c (a + 1 + BitVec.ofNat 8 i) := fun i hi => by
      rw [← add_ofNat_succ]
      exact (hplain (i + 1) (Nat.succ_lt_succ hi)).store hhead.ne_modeReg
    obtain ⟨regs, hwrite, hstores⟩ := ih (Nat.le_of_succ_le hlen) htail
    refine ⟨regs, ?_, hstores.cons hlen⟩
    simp only [Device.writeRegs, Device.writeReg_plain hhead, hwrite]
    rfl

/-- Reading the registers of a plain store gives its payload back (R186, R223). -/
theorem Device.Stores.readRegs {payload : List Byte} {regs : Memory} (h : d.Stores a payload regs)
    (hplain : ∀ i < payload.length, d.PlainAt c (a + BitVec.ofNat 8 i)) :
    ({ d with regs := regs } : Device).readRegs c a payload.length = payload := by
  refine List.ext_getElem? fun i => ?_
  by_cases hi : i < payload.length
  · have hreg := hplain i hi
    rw [Device.readRegs, List.getElem?_map, List.getElem?_range hi, Option.map_some,
      Device.readReg_plain hreg.ne_pageReg hreg.ne_modeReg]
    exact h.inside i hi
  · simp [Device.readRegs, hi]

end

/-! ### RD and WR on a port -/

section
variable {s : State} {port : Port} {reg len : Byte}

theorem exec_rd_answers (hport : s.ports[s.activePort]? = some port) (hlen : len ≠ 0) :
    exec (.rd reg len) s = .next (s.setDev s.activePort port
      (port.dev.answer (deviceReadOk :: len :: port.dev.readRegs s.params reg len.toNat))) := by
  change execRd reg len s = _
  simp only [execRd, hport, if_neg hlen]

theorem exec_wr_stores {payload : List Byte} {d : Device} (hport : s.ports[s.activePort]? = some port) (hlen : len ≠ 0)
    (hwrite : port.dev.writeRegs s.params reg payload = some d) :
    exec (.wr reg len payload) s = .next (s.setDev s.activePort port (d.answer [sentinel, writeOkMark])) := by
  change execWr reg len payload s = _
  simp only [execWr, hport, if_neg hlen, hwrite]

end

/-- Settles O51: the write leaves memory that holds the payload, and the read of the same registers gives it back. -/
theorem deviceRoundTrip : Obligations.DeviceRoundTrip := by
  intro s reg len payload port hport hlen hcount hregs
  have hplain : ∀ i < payload.length, port.dev.PlainAt s.params (reg + BitVec.ofNat 8 i) := fun i hi => by
    obtain ⟨hpage, hmode, hgate⟩ := hregs i (hcount ▸ hi)
    exact ⟨hpage, hmode, fun h => absurd h hgate⟩
  obtain ⟨regs, hwrite, hstores⟩ :=
    Device.writeRegs_plain (hcount ▸ Nat.le_of_lt len.isLt : payload.length ≤ 256) hplain
  have hwr := exec_wr_stores hport hlen hwrite
  have hport' := s.setPort_getElem?_self s.activePort
    { port with dev := ({ port.dev with regs := regs } : Device).answer [sentinel, writeOkMark] } port hport
  have hrd := exec_rd_answers (reg := reg) hport' hlen
  refine ⟨_, _, _, hwr, hrd, State.setPort_getElem?_self _ _ _ _ hport', ?_⟩
  have hread := hstores.readRegs hplain
  rw [hcount] at hread
  exact congrArg (fun bytes => port.dev.out ++ [sentinel, writeOkMark] ++ deviceReadOk :: len :: bytes) hread

end Sys2Proof.Machine
end

section
/-! SUPPORT. The passes of the Device Context Manager (44_device_context.md): which operands they take, what each row of
R190 answers in FG's turn, the settle delay, and what a pass does with the status of the operation it called. -/

namespace Sys2Proof.Machine

/-! ### Issue -/

section
variable {s : State} {p : Byte} {callers : List Frame}

theorem passValid_selectPage_legal {page : Byte} (hp : p.toNat < s.nPorts) (hpage : page = 0 ∨ page = 1) :
    passValid s .selectPage p page = true := by
  simpa [passValid, State.hasPort, hp, validPage] using hpage

theorem passValid_setMode_legal {mode : Byte} (hp : p.toNat < s.nPorts) (hmode : mode ∈ s.params.modeSet) :
    passValid s .setMode p mode = true := by
  simp [passValid, State.hasPort, hp, validMode, hmode]

theorem issuePass_legal {k : Pass} {target : Byte} (h : passValid s k p target = true) :
    issuePass k p target callers s =
      { s with dcm := { s.dcm with phase := .readCurrent, port := p,
                                   target := if k = .getMode then s.dcm.target else target },
               fg := .dcm k :: callers } := if_pos h

theorem issuePass_selectPage {page : Byte} (hp : p.toNat < s.nPorts) (hpage : page = 0 ∨ page = 1) :
    issuePass .selectPage p page callers s =
      { s with dcm := { s.dcm with phase := .readCurrent, port := p, target := page },
               fg := .dcm .selectPage :: callers } :=
  issuePass_legal (passValid_selectPage_legal hp hpage)

/-- GET_MODE has no operand but the port, and keeps the target of the pass before (R194). -/
theorem issuePass_getMode {target : Byte} (hp : p.toNat < s.nPorts) :
    issuePass .getMode p target callers s =
      { s with dcm := { s.dcm with phase := .readCurrent, port := p }, fg := .dcm .getMode :: callers } :=
  issuePass_legal (by simp [passValid, State.hasPort, hp])

theorem issuePass_setMode {mode : Byte} (hp : p.toNat < s.nPorts) (hmode : mode ∈ s.params.modeSet) :
    issuePass .setMode p mode callers s =
      { s with dcm := { s.dcm with phase := .readCurrent, port := p, target := mode },
               fg := .dcm .setMode :: callers } :=
  issuePass_legal (passValid_setMode_legal hp hmode)

end

/-- Settles O27: legal operands pass the check of the issue, which then is the update stated. -/
theorem passesIssue : Obligations.PassesIssue := by
  intro s p x hfg hp
  refine ⟨fun hpage => ?_, ?_, fun hmode => ?_⟩
  · exact (foreground_idle s _ hfg).trans (congrArg _ (issuePass_selectPage hp hpage))
  · exact (foreground_idle s _ hfg).trans (congrArg _ (issuePass_getMode hp))
  · exact (foreground_idle s _ hfg).trans (congrArg _ (issuePass_setMode hp hmode))

/-- Settles O28: each sequence issues its first pass, above its own frames. -/
theorem sequencesIssue : Obligations.SequencesIssue := by
  intro s p page addr len x a hfg hp
  refine ⟨?_, fun hmode => ?_, ?_⟩
  · exact (foreground_idle s _ hfg).trans (congrArg _ (issuePass_getMode hp))
  · exact (foreground_idle s _ hfg).trans (congrArg _ (issuePass_setMode hp hmode))
  · exact (foreground_idle s _ hfg).trans (congrArg _ (issuePass_getMode hp))

/-! ### The rows of R190 in FG's turn -/

section
variable {s : State} {k : Pass} {callers : List Frame} (hfg : s.fg = .dcm k :: callers)
include hfg

theorem fgTurn_readCurrent (hphase : s.dcm.phase = .readCurrent) : fgTurn s = dcmReadCurrent k callers s := by
  simp only [fgTurn, hfg, dcmStep, hphase]

theorem fgTurn_decide (hphase : s.dcm.phase = .decide) : fgTurn s = dcmDecide k s := by
  simp only [fgTurn, hfg, dcmStep, hphase]

theorem fgTurn_writeNew (hphase : s.dcm.phase = .writeNew) : fgTurn s = dcmWriteNew k callers s := by
  simp only [fgTurn, hfg, dcmStep, hphase]

theorem fgTurn_settle (hphase : s.dcm.phase = .settle) : fgTurn s = dcmSettle k callers s := by
  simp only [fgTurn, hfg, dcmStep, hphase]

end

/-! ### ReadCurrent and WriteNew -/

section
variable {s : State} {p len : Byte}

theorem frpValid_internal_iff : frpValid s p len .internal = true ↔ p.toNat < s.nPorts ∧ len ≠ 0 := by
  simp [frpValid, State.hasPort]

/-- SET_MODE and GET_MODE share one device register, SELECT_PAGE has its own (R190). -/
theorem passReg_of_ne {k : Pass} (c : Params) (h : k ≠ .selectPage) : passReg c k = c.modeReg := by
  cases k with
  | selectPage => exact absurd rfl h
  | getMode | setMode => rfl

end

/-- Settles O39: the DCM's call of one byte on an existing port passes the FRP's check, after the drawn bytes. (The bare
name `passCallsFrp` is a predicate of the model.) -/
theorem passCallsFrp_holds : Obligations.PassCallsFrp := by
  intro s k callers reg hfg hp hreg
  have hpassReg : passReg s.params k = reg := by
    obtain ⟨rfl, rfl⟩ | ⟨hk, rfl⟩ := hreg
    · rfl
    · exact passReg_of_ne _ hk
  subst hpassReg
  refine ⟨fun hphase => ⟨Config.freeByte s.draws, Config.freeByte (s.draws + 1), Config.freeByte (s.draws + 2), ?_⟩,
    fun hphase => ⟨Config.freeByte s.draws, Config.freeByte (s.draws + 1), ?_⟩⟩
  · have hvalid : frpValid (drawDcmBuf s) s.dcm.port 1 .internal = true :=
      frpValid_internal_iff.mpr ⟨hp, by decide⟩
    exact (fgTurn_readCurrent hfg hphase).trans (congrArg _ (issueRead_legal hvalid))
  · have hvalid : frpValid s s.dcm.port 1 .internal = true := frpValid_internal_iff.mpr ⟨hp, by decide⟩
    exact (fgTurn_writeNew hfg hphase).trans (congrArg _ (issueWrite_legal hvalid))

/-! ### Decide -/

/-- Only GET_MODE, and SELECT_PAGE of the page that is selected, write nothing (R191, R196). -/
theorem decideNext_eq (k : Pass) (cur target : Byte) :
    decideNext k cur target =
      if k = .getMode ∨ (k = .selectPage ∧ cur = target) then .done .success else .writeNew := by
  cases k <;> simp [decideNext]

/-- Settles O40: Decide is the update stated, with the next phase as a condition on pass and bytes. -/
theorem passDecides : Obligations.PassDecides := by
  intro s k callers hfg hphase
  rw [fgTurn_decide hfg hphase, dcmDecide, decideNext_eq]

/-! ### The settle delay -/

section
variable {c : Params} {cur mode : Byte}

theorem settleTicks_into (hcur : cur ≠ c.modeConfig) (hmode : mode = c.modeConfig) : settleTicks c cur mode = 19 :=
  if_pos ⟨hcur, hmode⟩

theorem settleTicks_outOf (hcur : cur = c.modeConfig) (hmode : mode ≠ c.modeConfig) : settleTicks c cur mode = 7 := by
  rw [settleTicks, if_neg fun h => h.1 hcur, if_pos ⟨hcur, hmode⟩]
  rfl

/-- A switch that neither enters CONFIG nor leaves it has no delay (R197). -/
theorem settleTicks_beside (h : cur = c.modeConfig ↔ mode = c.modeConfig) : settleTicks c cur mode = 0 := by
  rw [settleTicks, if_neg fun hinto => hinto.1 (h.mpr hinto.2), if_neg fun hout => hout.2 (h.mp hout.1)]

end

/-- Settles O41: the four rows of the table are the three values. -/
theorem settleTable : Obligations.SettleTable := by
  intro c cur mode
  exact ⟨settleTicks_into, settleTicks_outOf,
    fun hcur hmode => settleTicks_beside (iff_of_true hcur hmode),
    fun hcur hmode => settleTicks_beside (iff_of_false hcur hmode)⟩

section
variable {s : State} {k : Pass} {callers : List Frame}

theorem dcmSettle_zero (h : settleTicks s.params s.dcm.current s.dcm.target = 0) :
    dcmSettle k callers s = .next (s.setDcmPhase (.done .success)) := if_pos h

theorem dcmSettle_delays (h : settleTicks s.params s.dcm.current s.dcm.target ≠ 0) :
    dcmSettle k callers s =
      .next (s.setFg (.delay (settleTicks s.params s.dcm.current s.dcm.target) s.tick :: .dcm k :: callers)) :=
  if_neg h

end

/-! ### A status delivered to a pass -/

section
variable {s : State} {k : Pass} {callers : List Frame} {st : Status} {v : ReturnValue}

theorem deliver_readCurrent (hphase : s.dcm.phase = .readCurrent) :
    deliver (.dcm k :: callers) st v s =
      .next ((s.setDcmPhase (if st = .success then .decide else .done st)).setFg (.dcm k :: callers)) := by
  simp only [deliver, hphase]

theorem deliver_writeNew (hphase : s.dcm.phase = .writeNew) :
    deliver (.dcm k :: callers) st v s = .next ((s.setDcmPhase (afterWrite k st)).setFg (.dcm k :: callers)) := by
  simp only [deliver, hphase]

theorem deliver_settle (hphase : s.dcm.phase = .settle) :
    deliver (.dcm k :: callers) st v s = .next ((s.setDcmPhase (.done .success)).setFg (.dcm k :: callers)) := by
  simp only [deliver, hphase]

end

/-- Settles O42: the row of the table gives the count, and the ticks gone by, `k` modulo the wrap, end the delay. -/
theorem setModeSettles : Obligations.SetModeSettles := by
  refine ⟨fun s callers n hfg hphase hrow => ?_, fun s callers n t0 k hfg hphase hk htick => ?_⟩
  · have hticks : settleTicks s.params s.dcm.current s.dcm.target = n := by
      obtain ⟨hcur, htarget, rfl⟩ | ⟨hcur, htarget, rfl⟩ | ⟨hboth, rfl⟩ := hrow
      · exact settleTicks_into hcur htarget
      · exact settleTicks_outOf hcur htarget
      · exact settleTicks_beside hboth
    subst hticks
    rw [fgTurn_settle hfg hphase]
    exact ⟨dcmSettle_zero, dcmSettle_delays⟩
  · have helapsed : s.elapsed t0 = k := State.elapsed_of_tick hk htick
    exact ⟨fun hearly => fgTurn_delay_waits hfg (helapsed ▸ hearly),
      fun hdue => (fgTurn_delay_ends hfg (helapsed ▸ hdue)).trans (deliver_settle hphase)⟩

/-- Only SET_MODE goes on after its write, and only on Success (R190). -/
theorem afterWrite_eq (k : Pass) (st : Status) :
    afterWrite k st = if st = .success ∧ k = .setMode then .settle else .done st := by
  cases k <;> cases st <;> rfl

/-- Only GET_MODE has a value, and only on Success (R194). -/
theorem passValue_eq (k : Pass) (st : Status) (s : State) :
    passValue k st s = if k = .getMode ∧ st = .success then .mode s.dcm.current else .none := by
  cases k <;> cases st <;> rfl

/-- ReadCurrent and WriteNew are the rows that call: Success goes on to Decide, or to Settle for SET_MODE (R190, R170). -/
theorem deliver_calling {s : State} {k : Pass} {callers : List Frame} {st : Status} {v : ReturnValue}
    (hcall : s.dcm.phase = .readCurrent ∨ s.dcm.phase = .writeNew) :
    deliver (.dcm k :: callers) st v s =
      .next ((s.setDcmPhase (if st = .success ∧ s.dcm.phase = .readCurrent then .decide
                             else if st = .success ∧ k = .setMode then .settle
                             else .done st)).setFg (.dcm k :: callers)) := by
  obtain hphase | hphase := hcall
  · rw [deliver_readCurrent hphase]
    by_cases hst : st = .success <;> simp [hst, hphase]
  · rw [deliver_writeNew hphase, afterWrite_eq]
    simp [hphase]

/-- Settles O43: the status goes to the row of the calling pass; a pass of the host delivers to nobody below. -/
theorem passReturns : Obligations.PassReturns := by
  refine ⟨fun s k callers st hfg hfrp hcall => ?_, fun s k st hfg hphase => ?_⟩
  · exact (fgTurn_frp_done hfg hfrp).trans (deliver_calling (hcall.imp_right And.left))
  · rw [fgTurn_dcm_done hfg hphase, passValue_eq]
    rfl

end Sys2Proof.Machine
end

section
/-! SUPPORT. The sequences above the passes (44_device_context.md): what ENSURE_CONFIG, RESTORE_MODE and SETTINGS_WRITE
do with the status of each of their calls, up to the return to the host. -/

namespace Sys2Proof.Machine

/-! ### A status delivered to a sequence -/

section
variable {s : State} {callers : List Frame} {st : Status} {v : ReturnValue} {page addr len : Byte} {a : Nat}

theorem deliver_ensure_failed (stage : EnsureStage) (hst : st ≠ .success) :
    deliver (.ensure stage :: callers) st v s = deliver callers st .none s := by
  cases stage <;> exact if_pos hst

theorem deliver_ensure_inConfig (hcur : s.dcm.current = s.params.modeConfig) :
    deliver (.ensure .reading :: callers) .success v s =
      deliver callers .success (.mode s.dcm.current) { s with dcm := { s.dcm with prev := s.dcm.current } } :=
  (if_neg (not_not_intro rfl)).trans (if_pos hcur)

theorem deliver_ensure_switches (hcur : s.dcm.current ≠ s.params.modeConfig) :
    deliver (.ensure .reading :: callers) .success v s =
      .next (issuePass .setMode s.dcm.port s.params.modeConfig (.ensure .switching :: callers)
        { s with dcm := { s.dcm with prev := s.dcm.current } }) :=
  (if_neg (not_not_intro rfl)).trans (if_neg hcur)

theorem deliver_ensure_switched :
    deliver (.ensure .switching :: callers) .success v s = deliver callers .success (.mode s.dcm.prev) s :=
  if_neg (not_not_intro rfl)

/-- RESTORE_MODE passes every status up (R200). -/
theorem deliver_restore : deliver (.restore :: callers) st v s = deliver callers st .none s := rfl

/-- Whichever call fails, SETTINGS_WRITE passes its status up and undoes nothing (R203). -/
theorem deliver_settings_failed (stage : SettingsStage) (hst : st ≠ .success) :
    deliver (.settings stage page addr len a :: callers) st v s = deliver callers st .none s := by
  cases stage with
  | restoring => rfl
  | ensuring | paging | writing => exact if_pos hst

theorem deliver_settings_ensured :
    deliver (.settings .ensuring page addr len a :: callers) .success v s =
      .next (issuePass .selectPage s.dcm.port page (.settings .paging page addr len a :: callers) s) :=
  if_neg (not_not_intro rfl)

theorem deliver_settings_paged :
    deliver (.settings .paging page addr len a :: callers) .success v s =
      .next (issueWrite s.dcm.port addr len (.dmem a) (.settings .writing page addr len a :: callers) s) :=
  if_neg (not_not_intro rfl)

theorem deliver_settings_written :
    deliver (.settings .writing page addr len a :: callers) .success v s =
      .next (issuePass .setMode s.dcm.port s.dcm.prev
        (.restore :: .settings .restoring page addr len a :: callers) s) :=
  if_neg (not_not_intro rfl)

/-- The last call's status is the operation's (R202). -/
theorem deliver_settings_restored :
    deliver (.settings .restoring page addr len a :: callers) st v s = deliver callers st .none s := rfl

end

/-! ### A pass that is done, below it a sequence -/

section
variable {s : State} {st : Status} {callers : List Frame}

theorem fgTurn_ensure_failed {k : Pass} {stage : EnsureStage} (hfg : s.fg = .dcm k :: .ensure stage :: callers)
    (hphase : s.dcm.phase = .done st) (hst : st ≠ .success) :
    fgTurn s = deliver callers st .none (s.setDcmPhase .idle) :=
  (fgTurn_dcm_done hfg hphase).trans (deliver_ensure_failed stage hst)

theorem fgTurn_ensure_inConfig (hfg : s.fg = .dcm .getMode :: .ensure .reading :: callers)
    (hphase : s.dcm.phase = .done .success) (hcur : s.dcm.current = s.params.modeConfig) :
    fgTurn s = deliver callers .success (.mode s.dcm.current)
      { s with dcm := { s.dcm with phase := .idle, prev := s.dcm.current } } :=
  (fgTurn_dcm_done hfg hphase).trans (deliver_ensure_inConfig hcur)

theorem fgTurn_ensure_switches (hfg : s.fg = .dcm .getMode :: .ensure .reading :: callers)
    (hphase : s.dcm.phase = .done .success) (hcur : s.dcm.current ≠ s.params.modeConfig) :
    fgTurn s = .next (issuePass .setMode s.dcm.port s.params.modeConfig (.ensure .switching :: callers)
      { s with dcm := { s.dcm with phase := .idle, prev := s.dcm.current } }) :=
  (fgTurn_dcm_done hfg hphase).trans (deliver_ensure_switches hcur)

theorem fgTurn_ensure_switched (hfg : s.fg = .dcm .setMode :: .ensure .switching :: callers)
    (hphase : s.dcm.phase = .done .success) :
    fgTurn s = deliver callers .success (.mode s.dcm.prev) (s.setDcmPhase .idle) :=
  (fgTurn_dcm_done hfg hphase).trans deliver_ensure_switched

theorem fgTurn_restored (hfg : s.fg = .dcm .setMode :: .restore :: callers) (hphase : s.dcm.phase = .done st) :
    fgTurn s = deliver callers st .none (s.setDcmPhase .idle) :=
  (fgTurn_dcm_done hfg hphase).trans deliver_restore

end

/-- Settles O44: each end of ENSURE_CONFIG and of RESTORE_MODE delivers to nobody below; the switch issues SET_MODE. -/
theorem ensureAndRestoreReturn : Obligations.EnsureAndRestoreReturn := by
  refine ⟨fun s callers hfg hphase hcur hp hmode => ?_, fun s hfg hphase hcur => ?_, fun s hfg hphase => ?_,
    fun s k stage st hfg hphase hst => ?_, fun s st hfg hphase => ?_⟩
  · exact (fgTurn_ensure_switches hfg hphase hcur).trans (congrArg _ (issuePass_setMode hp hmode))
  · rw [← hcur]
    exact fgTurn_ensure_inConfig hfg hphase hcur
  · exact fgTurn_ensure_switched hfg hphase
  · exact fgTurn_ensure_failed hfg hphase hst
  · exact fgTurn_restored hfg hphase

/-! ### SETTINGS_WRITE -/

/-- Settles O45: each Success leads to the issue of the next call, whose own check finds an illegal operand. -/
theorem settingsWriteInOrder : Obligations.SettingsWriteInOrder := by
  intro s page addr len a hp
  refine ⟨fun hfg hphase hcur => ?_, fun hfg hphase => ?_, fun hfg hphase => ?_, fun hfg hphase => ?_,
    fun st hfg hphase => fgTurn_restored hfg hphase⟩
  · rw [fgTurn_ensure_inConfig hfg hphase hcur, deliver_settings_ensured]
    exact ⟨fun hpage => congrArg _ (issuePass_selectPage hp hpage),
      fun h0 h1 => congrArg _ (issuePass_illegal (passValid_selectPage_illegal h0 h1))⟩
  · rw [fgTurn_ensure_switched hfg hphase, deliver_settings_ensured]
    exact ⟨fun hpage => congrArg _ (issuePass_selectPage hp hpage),
      fun h0 h1 => congrArg _ (issuePass_illegal (passValid_selectPage_illegal h0 h1))⟩
  · rw [fgTurn_dcm_done hfg hphase, deliver_settings_paged]
    exact ⟨fun ha hlen => ⟨Config.freeByte s.draws, Config.freeByte (s.draws + 1),
        congrArg _ (issueWrite_legal (frpValid_dmem_iff.mpr ⟨hp, ha, hlen⟩))⟩,
      fun hbad => congrArg _ (issueWrite_illegal (frpValid_dmem_illegal hbad))⟩
  · rw [fgTurn_frp_done hfg hphase, deliver_settings_written]
    exact ⟨fun hmode => congrArg _ (issuePass_setMode hp hmode),
      fun hmode => congrArg _ (issuePass_illegal (passValid_setMode_illegal hmode))⟩

/-- Settles O46: a failed call's status is passed up through every frame to the host, and no call is issued. -/
theorem failedWriteRestoresNothing : Obligations.FailedWriteRestoresNothing := by
  intro s page addr len a st hst
  refine ⟨fun k stage hfg hphase => ?_, fun hfg hphase => ?_, fun hfg hphase => ?_⟩
  · exact (fgTurn_ensure_failed hfg hphase hst).trans (deliver_settings_failed .ensuring hst)
  · exact (fgTurn_dcm_done hfg hphase).trans (deliver_settings_failed .paging hst)
  · exact (fgTurn_frp_done hfg hphase).trans (deliver_settings_failed .writing hst)

end Sys2Proof.Machine
end

section
/-! SUPPORT. What the reference device answers (45_environment.md): the registers an RD reads, what a WR to PAGE_REG, to
MODE_REG and to a gated register does, and the error answers. -/

namespace Sys2Proof.Machine

/-! ### Reading registers -/

section
variable {c : Params} {d : Device} {a v : Byte}

theorem regKey_zero (a : Byte) : regKey 0 a = a.toNat := by simp [regKey]

theorem Device.mode_eq (c : Params) (d : Device) : d.mode c = memRead d.regs c.modeReg.toNat := by
  rw [Device.mode, regKey_zero]

/-- A read follows the aliases of R220: PAGE_REG is the page, MODE_REG the one mode register. -/
theorem Device.readReg_eq (c : Params) (d : Device) (a : Byte) :
    d.readReg c a =
      if a = c.pageReg then BitVec.ofNat 8 d.page
      else if a = c.modeReg then memRead d.regs c.modeReg.toNat
      else memRead d.regs (256 * d.page + a.toNat) := by
  rw [← Device.mode_eq]
  rfl

/-! ### The gate -/

/-- `CFG_ONLY` lets the device store to register `a`: it does not list it, or the mode is CONFIG (R224). -/
def Device.Ungated (c : Params) (d : Device) (a : Byte) : Prop := (d.page, a) ∈ c.cfgOnly → d.mode c = c.modeConfig

theorem Device.gate_eq_true (hgate : (d.page, a) ∈ c.cfgOnly) (hmode : d.mode c ≠ c.modeConfig) :
    (c.cfgOnly.contains (d.page, a) && d.mode c != c.modeConfig) = true := by
  simpa using And.intro hgate hmode

theorem Device.gate_eq_false (h : d.Ungated c a) :
    (c.cfgOnly.contains (d.page, a) && d.mode c != c.modeConfig) = false := by
  simpa [Device.Ungated] using h

theorem Device.writeReg_gated (hgate : (d.page, a) ∈ c.cfgOnly) (hmode : d.mode c ≠ c.modeConfig) :
    d.writeReg c a v = none := by
  rw [Device.writeReg, if_pos (gate_eq_true hgate hmode)]

/-- A payload that meets neither PAGE_REG nor MODE_REG leaves page and mode as they are, so the first gated register it
reaches makes the whole store fail (R224, log 12). -/
theorem Device.writeRegs_gated {payload : List Byte}
    (hplain : ∀ i < payload.length, a + BitVec.ofNat 8 i ≠ c.pageReg ∧ a + BitVec.ofNat 8 i ≠ c.modeReg)
    (hgate : ∃ i < payload.length, (d.page, a + BitVec.ofNat 8 i) ∈ c.cfgOnly) (hmode : d.mode c ≠ c.modeConfig) :
    d.writeRegs c a payload = none := by
  induction payload generalizing d a with
  | nil =>
    obtain ⟨i, hi, -⟩ := hgate
    exact absurd hi (Nat.not_lt_zero i)
  | cons v vs ih =>
    by_cases hhead : (d.page, a) ∈ c.cfgOnly
    · rw [Device.writeRegs, Device.writeReg_gated hhead hmode]
    · obtain ⟨hpage, hreg⟩ : a ≠ c.pageReg ∧ a ≠ c.modeReg := by simpa using hplain 0 (Nat.succ_pos _)
      have htail : (d.store a v).writeRegs c (a + 1) vs = none := by
        refine ih (fun i hi => ?_) ?_ (by rwa [Device.mode_store hreg])
        · rw [← add_ofNat_succ]
          exact hplain (i + 1) (Nat.succ_lt_succ hi)
        · obtain ⟨i, hi, hmem⟩ := hgate
          cases i with
          | zero => exact absurd (by simpa using hmem) hhead
          | succ i => exact ⟨i, Nat.lt_of_succ_lt_succ hi, by rwa [← add_ofNat_succ]⟩
      rw [Device.writeRegs, Device.writeReg_plain ⟨hpage, hreg, fun h => absurd h hhead⟩]
      exact htail

/-! ### A store of one byte -/

theorem Device.writeRegs_singleton : d.writeRegs c a [v] = d.writeReg c a v := by
  unfold Device.writeRegs
  cases d.writeReg c a v <;> rfl

theorem Device.writeReg_pageReg (h : d.Ungated c c.pageReg) :
    d.writeReg c c.pageReg v = some { d with page := v.toNat % 2 } := by
  simp only [Device.writeReg, gate_eq_false h, if_true, if_false, Bool.false_eq_true]

theorem Device.writeReg_modeReg (hne : c.pageReg ≠ c.modeReg) (h : d.Ungated c c.modeReg) :
    d.writeReg c c.modeReg v =
      some { d with regs := memWrite d.regs c.modeReg.toNat v, settle := d.settleAfter c v } := by
  simp only [Device.writeReg, gate_eq_false h, hne.symm, regKey_zero, if_true, if_false, Bool.false_eq_true]

theorem Device.settleAfter_eq (c : Params) (d : Device) (m : Byte) :
    d.settleAfter c m =
      if memRead d.regs c.modeReg.toNat ≠ c.modeConfig ∧ m = c.modeConfig then 19
      else if memRead d.regs c.modeReg.toNat = c.modeConfig ∧ m ≠ c.modeConfig then 7
      else d.settle := by
  rw [← Device.mode_eq]
  rfl

end

/-! ### Error answers -/

theorem errorCode_bounds (k : Fin 9) : 0x02 ≤ errorCode k ∧ errorCode k ≤ 0x0A := by
  revert k
  decide

section
variable {s : State} {port : Port} {reg len : Byte} {payload : List Byte}

theorem exec_rd_zero (hport : s.ports[s.activePort]? = some port) :
    exec (.rd reg 0) s = .next (deviceError s.activePort port s) := by
  change execRd reg 0 s = _
  simp only [execRd, hport, if_true]

theorem exec_wr_zero (hport : s.ports[s.activePort]? = some port) :
    exec (.wr reg 0 payload) s = .next (deviceError s.activePort port s) := by
  change execWr reg 0 payload s = _
  simp only [execWr, hport, if_true]

theorem exec_wr_refused (hport : s.ports[s.activePort]? = some port) (hlen : len ≠ 0)
    (hwrite : port.dev.writeRegs s.params reg payload = none) :
    exec (.wr reg len payload) s = .next (deviceError s.activePort port s) := by
  change execWr reg len payload s = _
  simp only [execWr, hport, if_neg hlen, hwrite]

/-- A gated register makes a write of one byte fail whichever register it is, and a longer one where no byte changes
page or mode on the way to it (R224, R226). -/
theorem Device.writeRegs_refused {c : Params} {d : Device} (hcount : payload.length = len.toNat)
    (hplain : len = 1 ∨
      ∀ i < len.toNat, reg + BitVec.ofNat 8 i ≠ c.pageReg ∧ reg + BitVec.ofNat 8 i ≠ c.modeReg)
    (hgate : ∃ i < len.toNat, (d.page, reg + BitVec.ofNat 8 i) ∈ c.cfgOnly) (hmode : d.mode c ≠ c.modeConfig) :
    d.writeRegs c reg payload = none := by
  rw [← hcount] at hplain hgate
  obtain rfl | hplain := hplain
  · obtain ⟨v, rfl⟩ : ∃ v, payload = [v] := List.length_eq_one_iff.mp hcount
    obtain ⟨i, hi, hmem⟩ := hgate
    obtain rfl : i = 0 := Nat.lt_one_iff.mp hi
    rw [Device.writeRegs_singleton]
    exact Device.writeReg_gated (by simpa using hmem) hmode
  · exact Device.writeRegs_gated hplain hgate hmode

end

/-! ### The obligations -/

/-- Settles O47: the answer is the list of `Device.readReg`, register by register. -/
theorem rdAnswers : Obligations.RdAnswers := by
  intro s reg len port hport hlen
  have hanswer := exec_rd_answers (reg := reg) hport hlen
  simp only [Device.readRegs, Device.readReg_eq] at hanswer
  exact hanswer

/-- Settles O48: every register of the range is plain, so the payload is stored whole and nothing else. -/
theorem wrStores : Obligations.WrStores := by
  intro s reg len payload port hport hlen hcount hregs
  have hplain : ∀ i < payload.length, port.dev.PlainAt s.params (reg + BitVec.ofNat 8 i) := fun i hi => by
    obtain ⟨hpage, hmode, hgate⟩ := hregs i (hcount ▸ hi)
    exact ⟨hpage, hmode, fun h => (Device.mode_eq _ _).trans (hgate h)⟩
  obtain ⟨regs, hwrite, hinside, houtside⟩ :=
    Device.writeRegs_plain (hcount ▸ Nat.le_of_lt len.isLt : payload.length ≤ 256) hplain
  rw [hcount] at hinside houtside
  exact ⟨regs, exec_wr_stores hport hlen hwrite, hinside, houtside⟩

/-- Settles O49: the one byte passes the gate and reaches the page or the mode register. -/
theorem wrSwitches : Obligations.WrSwitches := by
  intro s v port hport hne mode
  have hmode : port.dev.mode s.params = mode := Device.mode_eq _ _
  refine ⟨fun hgate => ?_, fun hgate => ?_⟩
  · have hwrite : port.dev.writeRegs s.params s.params.pageReg [v] = some { port.dev with page := v.toNat % 2 } :=
      Device.writeRegs_singleton.trans (Device.writeReg_pageReg fun h => hmode.trans (hgate h))
    exact exec_wr_stores hport (by decide) hwrite
  · have hwrite := (Device.writeRegs_singleton (v := v)).trans
      (Device.writeReg_modeReg hne fun h => hmode.trans (hgate h))
    rw [Device.settleAfter_eq] at hwrite
    exact exec_wr_stores hport (by decide) hwrite

end Sys2Proof.Machine
end

section
/-! SUPPORT. DevTake (45_environment.md, R221): when the device drops a byte, collects it, or has its frame complete; what
it executes or answers then. -/

namespace Sys2Proof.Machine

/-! ### Replacing a port -/

section
variable {s : State} {p : Nat} {port : Port}

theorem State.setPort_self (h : s.ports[p]? = some port) : s.setPort p port = s := by
  obtain ⟨hp, rfl⟩ := List.getElem?_eq_some_iff.mp h
  simp [State.setPort]

theorem State.setPort_setPort (s : State) (p : Nat) (a b : Port) : (s.setPort p a).setPort p b = s.setPort p b := by
  simp [State.setPort]

theorem step_of_moves_cons {m : Move} {ms : List Move} (h : s.moves = m :: ms) :
    step s = runMove m { s with moves := ms } := by
  simp only [step, nextStep, h]

end

/-! ### The byte taken -/

section
variable {d : Device} {b : Byte}

theorem Device.collect_none (h : 0 < d.settle ∨ d.cmd = [] ∧ b ≠ sync) : d.collect b = none := by
  unfold Device.collect
  split
  · rfl
  · rename_i hsettle
    exact if_pos (h.resolve_left (by omega))

theorem Device.collect_some (hsettle : d.settle = 0) (h : d.cmd ≠ [] ∨ b = sync) :
    d.collect b = some (d.cmd ++ [b]) := by
  have hhunt : ¬ (d.cmd = [] ∧ b ≠ sync) := fun ⟨hcmd, hb⟩ => h.elim (absurd hcmd) hb
  simp only [Device.collect, hsettle, hhunt, ne_eq, not_true_eq_false, if_false]

/-- The first byte of what begins with `AA` is `AA`, collected or just taken. -/
theorem Device.collect_of_sync {r : List Byte} (hsettle : d.settle = 0) (h : d.cmd ++ [b] = sync :: r) :
    d.collect b = some (sync :: r) := by
  rw [← h]
  refine Device.collect_some hsettle ?_
  by_cases hcmd : d.cmd = []
  · rw [hcmd, List.nil_append] at h
    exact .inr (List.cons.inj h).left
  · exact .inl hcmd

/-- Fewer than four bytes are no frame (R221). -/
theorem frameComplete_short {cmd : List Byte} (h : cmd.length < 4) : frameComplete cmd = false := by
  unfold frameComplete
  split
  · simp only [List.length_cons] at h
    omega
  · rfl

/-- A write frame is complete with its last payload byte (R221). -/
theorem frameComplete_write (x reg len : Byte) (r : List Byte) :
    frameComplete (x :: opWrite :: reg :: len :: r) = decide (len.toNat ≤ r.length) := by
  simp [frameComplete]

theorem frameComplete_other {op : Byte} (x reg len : Byte) (r : List Byte) (h : op ≠ opWrite) :
    frameComplete (x :: op :: reg :: len :: r) = true := if_neg h

/-- What a byte leaves incomplete is a header, or a write frame with payload still to come (R221). -/
theorem frameComplete_partial {cmd : List Byte}
    (h : cmd.length < 3 ∨ ∃ reg len r, cmd ++ [b] = sync :: opWrite :: reg :: len :: r ∧ r.length < len.toNat) :
    frameComplete (cmd ++ [b]) = false := by
  obtain hshort | ⟨reg, len, r, hcmd, hlen⟩ := h
  · refine frameComplete_short ?_
    rw [List.length_append, List.length_singleton]
    omega
  · rw [hcmd, frameComplete_write]
    exact decide_eq_false hlen.not_ge

/-- A well-formed frame begins with `AA` and is complete. -/
theorem encode_frame_complete {size : Nat} {i : Instr} (hwf : i.wf size = true) (hi : i.channel = .frame) :
    ∃ r, encode size i = sync :: r ∧ frameComplete (sync :: r) = true := by
  cases i with
  | rd reg len => exact ⟨_, rfl, frameComplete_other _ _ _ _ (by decide)⟩
  | wr reg len payload =>
    obtain ⟨-, hlen⟩ : len ≠ 0 ∧ payload.length = len.toNat := by simpa [Instr.wf] using hwf
    exact ⟨_, rfl, (frameComplete_write _ _ _ _).trans (decide_eq_true hlen.ge)⟩
  | _ => cases hi

end

/-! ### The move -/

/-- The port once the device has taken the last byte of a frame: that byte off the line, nothing collected (R221). -/
def Port.frameTaken (port : Port) (line : List Byte) : Port :=
  { port with lineOut := line, dev := { port.dev with cmd := [] } }

section
variable {s : State} {p : Nat} {port : Port} {b : Byte} {line cmd : List Byte} {fault : Option (Fin 9)}

theorem devTake_absent (hp : s.ports[p]? = none) : devTake p fault s = .next s := by
  simp only [devTake, hp]

theorem devTake_quiet (hp : s.ports[p]? = some port) (hline : port.lineOut = []) : devTake p fault s = .next s := by
  simp only [devTake, hp, hline]

theorem devTake_drops (hp : s.ports[p]? = some port) (hline : port.lineOut = b :: line)
    (hcollect : port.dev.collect b = none) :
    devTake p fault s = .next (s.setPort p { port with lineOut := line }) := by
  simp only [devTake, hp, hline, hcollect]

theorem devTake_collects (hp : s.ports[p]? = some port) (hline : port.lineOut = b :: line)
    (hcollect : port.dev.collect b = some cmd) (hcmd : frameComplete cmd = false) :
    devTake p fault s = .next (s.setPort p { port with lineOut := line, dev := { port.dev with cmd := cmd } }) := by
  simp only [devTake, hp, hline, hcollect, hcmd, Bool.false_eq_true, if_false]

theorem devTake_completes (hp : s.ports[p]? = some port) (hline : port.lineOut = b :: line)
    (hcollect : port.dev.collect b = some cmd) (hcmd : frameComplete cmd = true) :
    devTake p fault s = runFrame p cmd fault (s.setPort p (port.frameTaken line)) := by
  simp only [devTake, hp, hline, hcollect, hcmd, if_true]
  rfl

/-! ### The frame executed -/

theorem runFrame_decoded {i : Instr} {rest : List Byte} (hp : s.ports[p]? = some port)
    (hdecode : decodeFrame cmd = .ok (i, rest)) : runFrame p cmd none s = exec i { s with activePort := p } := by
  simp only [runFrame, hp, hdecode]

theorem runFrame_undecoded {e : DecodeError} (hp : s.ports[p]? = some port) (hdecode : decodeFrame cmd = .error e) :
    runFrame p cmd none s = .next (deviceError p port s) := by
  simp only [runFrame, hp, hdecode]

theorem runFrame_fault (k : Fin 9) (hp : s.ports[p]? = some port) :
    runFrame p cmd (some k) s = .next (s.setDev p port (port.dev.answer [sentinel, errorCode k])) := by
  simp only [runFrame, hp]

theorem decodeFrame_badOpcode {op : Byte} (reg len : Byte) (r : List Byte) (hread : op ≠ opRead) (hwrite : op ≠ opWrite) :
    decodeFrame (sync :: op :: reg :: len :: r) = .error .badOpcode := by
  simp only [decodeFrame, ne_eq, not_true_eq_false, if_false, hread, hwrite]

/-- A header with `len = 0` or an unknown opcode is answered with an error; it is executed, and marks its port, only
where the opcode is known (R226, log 20). -/
theorem runFrame_error {op len : Byte} (reg : Byte) (hp : s.ports[p]? = some port)
    (h : len = 0 ∧ (op = opWrite ∨ op = opRead) ∨ op ≠ opWrite ∧ op ≠ opRead) :
    runFrame p [sync, op, reg, len] none s =
      .next (deviceError p port { s with activePort := if op = opWrite ∨ op = opRead then p else s.activePort }) := by
  obtain ⟨rfl, rfl | rfl⟩ | ⟨hwrite, hread⟩ := h
  · have hdecode : decodeFrame [sync, opWrite, reg, 0] = .ok (.wr reg 0 [], []) :=
      decodeFrame_wrFrame (len := 0) (payload := []) reg [] rfl
    rw [runFrame_decoded hp hdecode, if_pos (.inl rfl)]
    exact exec_wr_zero hp
  · have hdecode : decodeFrame [sync, opRead, reg, 0] = .ok (.rd reg 0, []) := decodeFrame_rdFrame reg 0 []
    rw [runFrame_decoded hp hdecode, if_pos (.inr rfl)]
    exact exec_rd_zero hp
  · rw [runFrame_undecoded hp (decodeFrame_badOpcode reg len [] hread hwrite), if_neg (not_or_intro hwrite hread)]

end

/-! ### The obligations -/

/-- Settles O7: what the device has collected is the frame's encoding, which is complete and decodes back. -/
theorem stepRunsFrame : Obligations.StepRunsFrame := by
  intro s i p port b line ms hwf hi hmoves hp hsettle hline hcmd
  obtain ⟨r, hencode, hcomplete⟩ := encode_frame_complete hwf hi
  have hdecode : decodeFrame (sync :: r) = .ok (i, []) := by
    simpa only [List.append_nil, hencode] using decodeFrame_encode [] hwf hi
  have hcollect := Device.collect_of_sync hsettle (hcmd.trans hencode)
  have htaken := State.setPort_getElem?_self { s with moves := ms } p (port.frameTaken line) port hp
  exact (step_of_moves_cons hmoves).trans
    ((devTake_completes (s := { s with moves := ms }) hp hline hcollect hcomplete).trans
      (runFrame_decoded htaken hdecode))

/-- Settles O50: each cause ends in `deviceError`, or in the fault's own answer. -/
theorem deviceErrorAnswers : Obligations.DeviceErrorAnswers := by
  refine ⟨fun s reg len payload port hport => ?_,
    fun s p port b op reg len line payload hp hsettle hline hcmd => ⟨fun hpayload herror => ?_, fun hcomplete k => ?_⟩⟩
  · obtain ⟨hlow, hhigh⟩ := errorCode_bounds (Config.freeErrorCode s.draws)
    refine ⟨_, hlow, hhigh, exec_rd_zero hport, exec_wr_zero hport, fun hlen hcount hplain hgate hmode => ?_⟩
    rw [← Device.mode_eq] at hmode
    exact exec_wr_refused hport hlen (Device.writeRegs_refused hcount hplain hgate hmode)
  · subst hpayload
    obtain ⟨hlow, hhigh⟩ := errorCode_bounds (Config.freeErrorCode s.draws)
    have hcomplete : frameComplete [sync, op, reg, len] = true := by
      by_cases hop : op = opWrite
      · obtain ⟨rfl, -⟩ := herror.resolve_right fun h => h.left hop
        rw [hop, frameComplete_write]
        rfl
      · exact frameComplete_other _ _ _ _ hop
    refine ⟨_, hlow, hhigh, ?_⟩
    calc devTake p none s = runFrame p [sync, op, reg, len] none (s.setPort p (port.frameTaken line)) :=
          devTake_completes hp hline (Device.collect_of_sync hsettle hcmd) hcomplete
      _ = _ := runFrame_error reg (s.setPort_getElem?_self p _ port hp) herror
      _ = _ := by
        simp only [deviceError, State.setDev, State.setPort, List.set_set]
        rfl
  · have hcomplete : frameComplete (sync :: op :: reg :: len :: payload) = true := by
      obtain ⟨rfl, hcount⟩ | ⟨hop, -⟩ := hcomplete
      · exact (frameComplete_write _ _ _ _).trans (decide_eq_true hcount.ge)
      · exact frameComplete_other _ _ _ _ hop
    calc devTake p (some k) s
        = runFrame p (sync :: op :: reg :: len :: payload) (some k) (s.setPort p (port.frameTaken line)) :=
          devTake_completes hp hline (Device.collect_of_sync hsettle hcmd) hcomplete
      _ = _ := runFrame_fault k (s.setPort_getElem?_self p _ port hp)
      _ = .next (s.setPort p _) := congrArg _ (State.setPort_setPort s p _ _)

end Sys2Proof.Machine
end

section
/-! SUPPORT. The other moves around the block (45_environment.md): the reference peripheral, the link, the host's store
and the line configuration; each when it is enabled and when it is not. -/

namespace Sys2Proof.Machine

/-! ### The peripheral and the link -/

section
variable {port : Port} {b : Byte} {fe pe ne : Bool}

theorem Port.txLoad_waiting (htdr : port.periph.tdr = some b) (htsr : port.periph.tsr = none) :
    port.txLoad = { port with periph := { port.periph with tsr := some b, tdr := none, txe := true } } := by
  simp only [Port.txLoad, htdr, htsr]

theorem Port.txLoad_disabled (h : port.periph.tdr = none ∨ port.periph.tsr = some b) : port.txLoad = port := by
  unfold Port.txLoad
  split
  · rename_i htdr htsr
    rw [htdr, htsr] at h
    simp at h
  · rfl

/-- TC is raised when nothing waits behind the byte that goes out (R215). -/
theorem Port.txShiftOut_shifted (htsr : port.periph.tsr = some b) :
    port.txShiftOut =
      { port with periph := { port.periph with tsr := none,
                                               tc := if port.periph.tdr = none then true else port.periph.tc },
                  lineOut := port.lineOut ++ [b] } := by
  have htc : (port.periph.tc || port.periph.tdr.isNone) = if port.periph.tdr = none then true else port.periph.tc := by
    cases port.periph.tdr <;> simp
  simp only [Port.txShiftOut, htsr, htc]

theorem Port.txShiftOut_disabled (htsr : port.periph.tsr = none) : port.txShiftOut = port := by
  simp only [Port.txShiftOut, htsr]

theorem Port.rxArrive_kept (hrxne : port.periph.rxne = false) :
    port.rxArrive b fe pe ne = { port with periph := { port.periph with
      rdr := b, rxne := true,
      errors := ⟨port.periph.errors.fe || fe, port.periph.errors.pe || pe, port.periph.errors.ore,
                 port.periph.errors.ne || ne⟩ } } := by
  simp only [Port.rxArrive, hrxne, Bool.false_eq_true, if_false]

theorem Port.rxArrive_lost (hrxne : port.periph.rxne = true) :
    port.rxArrive b fe pe ne =
      { port with periph := { port.periph with errors := { port.periph.errors with ore := true } } } := by
  simp only [Port.rxArrive, hrxne, if_true]

theorem Port.devSend_queued {out : List Byte} (hout : port.dev.out = b :: out) :
    port.devSend fe pe ne = ({ port with dev := { port.dev with out := out } } : Port).rxArrive b fe pe ne := by
  simp only [Port.devSend, hout]

theorem Port.devSend_disabled (hout : port.dev.out = []) : port.devSend fe pe ne = port := by
  simp only [Port.devSend, hout]

end

/-! ### One port's step -/

section
variable {s : State} {p : Nat} {port port' : Port} {f : Port → Port}

theorem envStep_absent (hp : s.ports[p]? = none) : envStep p f s = s := by
  simp only [envStep, hp]

theorem envStep_eq (hp : s.ports[p]? = some port) (hf : f port = port') : envStep p f s = s.setPort p port' := by
  simp only [envStep, hp, hf]

theorem envStep_disabled (hp : s.ports[p]? = some port) (hf : f port = port) : envStep p f s = s :=
  (envStep_eq hp hf).trans (State.setPort_self hp)

/-- DevSend is the arrival of the byte it takes off the device's queue (R225). -/
theorem envStep_devSend {b : Byte} {out : List Byte} {fe pe ne : Bool} (hp : s.ports[p]? = some port)
    (hout : port.dev.out = b :: out) :
    envStep p (fun q => q.devSend fe pe ne) s =
      envStep p (fun q => q.rxArrive b fe pe ne) (s.setPort p { port with dev := { port.dev with out := out } }) := by
  rw [envStep_eq hp (Port.devSend_queued hout), envStep_eq (s.setPort_getElem?_self p _ port hp) rfl,
    State.setPort_setPort]

/-! ### The host and the bring-up layer -/

theorem hostStore_inside {a : Nat} (v : Byte) (h : a < s.dmemTop) :
    hostStore a v s = .next { s with dmem := memWrite s.dmem a v } := by
  simp only [hostStore, writeByte, h, if_true]

theorem hostStore_outside {a : Nat} (v : Byte) (h : s.dmemTop ≤ a) : hostStore a v s = .fault .outsideDmem := by
  simp only [hostStore, writeByte, h.not_gt, if_false]

theorem configure_idle (cfg : LineConfig) (hp : s.ports[p]? = some port) (hfg : s.fg = [])
    (htx : port.tx.status = .idle) (hrx : port.rx.status = .idle) :
    configure p cfg s = s.setPort p { port with line := cfg } := by
  simp only [configure, hfg, hp, htx, hrx, and_self, if_true]

theorem configure_absent (cfg : LineConfig) (hp : s.ports[p]? = none) : configure p cfg s = s := by
  cases hfg : s.fg <;> simp only [configure, hfg, hp]

theorem configure_inFlight (cfg : LineConfig) (hp : s.ports[p]? = some port)
    (h : s.fg ≠ [] ∨ port.tx.status = .busy ∨ port.rx.status = .busy) : configure p cfg s = s := by
  cases hfg : s.fg with
  | nil =>
    have hbusy : ¬ (port.tx.status = .idle ∧ port.rx.status = .idle) := by
      rintro ⟨htx, hrx⟩
      simp [hfg, htx, hrx] at h
    simp only [configure, hfg, hp, hbusy, if_false]
  | cons => simp only [configure, hfg]

end

/-! ### The obligation, move by move -/

theorem runMove_absent {s : State} {p : Nat} {b : Byte} {fe pe ne : Bool} {fault : Option (Fin 9)} {cfg : LineConfig}
    (hp : s.ports[p]? = none) {m : Move}
    (hm : m ∈ [Move.txLoad p, .txShiftOut p, .rxArrive p b fe pe ne, .devTake p fault, .devSend p fe pe ne,
      .configure p cfg]) : runMove m s = .next s := by
  simp only [List.mem_cons, List.not_mem_nil, or_false] at hm
  obtain rfl | rfl | rfl | rfl | rfl | rfl := hm
  case inr.inr.inr.inl => exact devTake_absent hp
  case inr.inr.inr.inr.inr => exact congrArg _ (configure_absent cfg hp)
  all_goals exact congrArg _ (envStep_absent hp)

/-- Settles O52: the port after each move, put in its place; a disabled move puts the port back as it was. -/
theorem peripheralMovesBytes : Obligations.PeripheralMovesBytes := by
  refine ⟨fun s m ms hmoves => step_of_moves_cons hmoves,
    fun s p b fe pe ne fault cfg hp m hm => runMove_absent (List.getElem?_eq_none_iff.mpr hp) hm,
    fun s p port b fe pe ne hp => ⟨fun htdr htsr => ?_, fun h => ?_, fun htsr => ?_, fun htsr => ?_, fun hrxne => ?_,
      fun hrxne => ?_, fun out hout => ?_, fun hout => ?_⟩,
    fun s p port fault hp => ⟨fun hline => devTake_quiet hp hline, fun b line hline => ⟨fun h => ?_,
      fun hsettle hhunt hpartial => ?_⟩⟩,
    fun s a v => ⟨fun h => ?_, fun h => hostStore_outside v h⟩,
    fun s p port cfg hp => ⟨fun hfg htx hrx => ?_, fun h => ?_⟩⟩
  · exact congrArg _ (envStep_eq hp (Port.txLoad_waiting htdr htsr))
  · exact congrArg _ (envStep_disabled hp (Port.txLoad_disabled h))
  · exact congrArg _ (envStep_eq hp (Port.txShiftOut_shifted htsr))
  · exact congrArg _ (envStep_disabled hp (Port.txShiftOut_disabled htsr))
  · exact congrArg _ (envStep_eq hp (Port.rxArrive_kept hrxne))
  · exact congrArg _ (envStep_eq hp (Port.rxArrive_lost hrxne))
  · exact congrArg _ (envStep_devSend hp hout)
  · exact congrArg _ (envStep_disabled hp (Port.devSend_disabled hout))
  · exact devTake_drops hp hline (Device.collect_none h)
  · exact devTake_collects hp hline (Device.collect_some hsettle hhunt) (frameComplete_partial hpartial)
  · exact ⟨_, hostStore_inside v h, memRead_memWrite_self _ _ _, fun x hx => memRead_memWrite_ne _ _ _ _ hx⟩
  · exact congrArg _ (configure_idle cfg hp hfg htx hrx)
  · exact congrArg _ (configure_inFlight cfg hp h)

end Sys2Proof.Machine
end

section
/-! SUPPORT. What every step keeps of the state's forms: the memories' canonical form (log 8), TXE set exactly when the
data register is empty (R212), and parameters that R5 allows; first for a change of one port, then agent by agent. -/

namespace Sys2Proof.Machine

/-- The forms that hold of `s` hold of `t`. -/
def KeepsForms (s t : State) : Prop :=
  (s.memorySound → t.memorySound) ∧ (s.periphSound → t.periphSound) ∧ (s.legal → t.legal)

/-! ### A change of one port -/

/-- The change of a port keeps TXE equal to an empty data register, and the device registers canonical. -/
structure Port.KeepsForms (port port' : Port) : Prop where
  txe : (port.periph.txe = true ↔ port.periph.tdr = none) → (port'.periph.txe = true ↔ port'.periph.tdr = none)
  regs : Memory.wf port.dev.regs = true → Memory.wf port'.dev.regs = true

section
variable {port port' : Port}

theorem Port.KeepsForms.of_eq (htxe : port'.periph.txe = port.periph.txe) (htdr : port'.periph.tdr = port.periph.tdr)
    (hregs : port'.dev.regs = port.dev.regs) : port.KeepsForms port' :=
  ⟨by rw [htxe, htdr]; exact id, by rw [hregs]; exact id⟩

theorem Port.KeepsForms.trans {port'' : Port} (h : port.KeepsForms port') (h' : port'.KeepsForms port'') :
    port.KeepsForms port'' := ⟨fun hp => h'.txe (h.txe hp), fun hp => h'.regs (h.regs hp)⟩

/-- A hand-over fills the data register and clears TXE (R213). -/
theorem Port.handOver_keepsForms (port : Port) (b : Byte) : port.KeepsForms (port.handOver b) := by
  refine ⟨fun _ => ?_, by rw [Port.handOver_dev]; exact id⟩
  unfold Port.handOver
  split <;> simp [periphWriteData]

theorem Port.countRx_keepsForms (port : Port) : port.KeepsForms port.countRx := by
  unfold Port.countRx
  split <;> exact .of_eq rfl rfl rfl

/-- TxLoad empties the data register and sets TXE (R214). -/
theorem Port.txLoad_keepsForms (port : Port) : port.KeepsForms port.txLoad := by
  unfold Port.txLoad
  split
  · exact ⟨fun _ => by simp, id⟩
  · exact .of_eq rfl rfl rfl

theorem Port.txShiftOut_keepsForms (port : Port) : port.KeepsForms port.txShiftOut := by
  unfold Port.txShiftOut
  split <;> exact .of_eq rfl rfl rfl

theorem Port.rxArrive_keepsForms (port : Port) (b : Byte) (fe pe ne : Bool) :
    port.KeepsForms (port.rxArrive b fe pe ne) := by
  unfold Port.rxArrive
  split <;> exact .of_eq rfl rfl rfl

theorem Port.devSend_keepsForms (port : Port) (fe pe ne : Bool) : port.KeepsForms (port.devSend fe pe ne) := by
  unfold Port.devSend
  split
  · exact .of_eq rfl rfl rfl
  · rename_i out _
    have htaken : port.KeepsForms { port with dev := { port.dev with out := out } } := .of_eq rfl rfl rfl
    exact htaken.trans (Port.rxArrive_keepsForms _ _ _ _ _)

end

/-- A register store writes one byte of the device's memory, or none. -/
theorem Device.writeReg_wf {c : Params} {d d' : Device} {a v : Byte} (h : d.writeReg c a v = some d')
    (hd : Memory.wf d.regs = true) : Memory.wf d'.regs = true := by
  unfold Device.writeReg at h
  split at h
  · cases h
  · split at h
    · cases h
      exact hd
    · split at h <;> cases h <;> exact memWrite_wf _ _ _ hd

theorem Device.writeRegs_wf {c : Params} {d d' : Device} {a : Byte} {payload : List Byte}
    (h : d.writeRegs c a payload = some d') (hd : Memory.wf d.regs = true) : Memory.wf d'.regs = true := by
  induction payload generalizing d a with
  | nil => cases h; exact hd
  | cons v vs ih =>
    unfold Device.writeRegs at h
    split at h
    · cases h
    · rename_i d1 hwrite
      exact ih h (Device.writeReg_wf hwrite hd)

/-! ### A change of the state -/

section
variable {s t u : State}

theorem KeepsForms.refl (s : State) : KeepsForms s s := ⟨id, id, id⟩

theorem KeepsForms.trans (h : KeepsForms s t) (h' : KeepsForms t u) : KeepsForms s u := by
  obtain ⟨hmemory, hperiph, hlegal⟩ := h
  obtain ⟨hmemory', hperiph', hlegal'⟩ := h'
  exact ⟨hmemory' ∘ hmemory, hperiph' ∘ hperiph, hlegal' ∘ hlegal⟩

theorem SequencerOnly.keepsForms (h : SequencerOnly s t) : KeepsForms s t := by
  obtain ⟨hparams, hports, hdmem, -⟩ := h
  simp only [KeepsForms, State.memorySound, State.periphSound, State.legal, State.nPorts, hparams, hports, hdmem]
  exact ⟨id, id, id⟩

theorem KeepsForms.of_setPort {p : Nat} {port port' : Port} (hp : s.ports[p]? = some port)
    (h : port.KeepsForms port') : KeepsForms s (s.setPort p port') := by
  have hmem := List.mem_of_getElem? hp
  refine ⟨fun ⟨hdmem, hregs⟩ => ⟨hdmem, fun q hq => ?_⟩, fun htxe q hq => ?_, fun hlegal => ?_⟩
  · obtain rfl | hq := s.mem_setPort p port' q hq
    · exact h.regs (hregs port hmem)
    · exact hregs q hq
  · obtain rfl | hq := s.mem_setPort p port' q hq
    · exact h.txe (htxe port hmem)
    · exact htxe q hq
  · rwa [State.legal, State.setPort_nPorts]

theorem KeepsForms.of_ports_map {f : Port → Port} (hf : ∀ port : Port, port.KeepsForms (f port))
    (hparams : t.params = s.params) (hports : t.ports = s.ports.map f) (hdmem : t.dmem = s.dmem) : KeepsForms s t := by
  simp only [KeepsForms, State.memorySound, State.periphSound, State.legal, State.nPorts, hparams, hports, hdmem,
    List.forall_mem_map, List.length_map]
  exact ⟨fun ⟨hwf, hregs⟩ => ⟨hwf, fun q hq => (hf q).regs (hregs q hq)⟩,
    fun htxe q hq => (hf q).txe (htxe q hq), id⟩

theorem writeByte_keepsForms {sp : Space} {a : Nat} {b : Byte} (h : writeByte s sp a b = .ok t) : KeepsForms s t := by
  obtain ⟨-, rfl⟩ | ⟨-, rfl⟩ := writeByte_ok h
  · exact ⟨fun ⟨hdmem, hregs⟩ => ⟨memWrite_wf _ _ _ hdmem, hregs⟩, id, id⟩
  · exact KeepsForms.refl s

theorem writeByte_ports {sp : Space} {a : Nat} {b : Byte} (h : writeByte s sp a b = .ok t) : t.ports = s.ports := by
  obtain ⟨-, rfl⟩ | ⟨-, rfl⟩ := writeByte_ok h <;> rfl

/-! ### The internal transport operations -/

theorem beginTx_keepsForms (p : Nat) (bytes : List Byte) (s : State) : KeepsForms s (beginTx p bytes s).2 := by
  obtain ⟨port, hp, -, -, -, h⟩ | ⟨st, -, h⟩ := beginTx_cases p bytes s <;> rw [h]
  · exact .of_setPort hp (.of_eq rfl rfl rfl)
  · exact KeepsForms.refl s

theorem beginRx_keepsForms (p : Nat) (dest : Dest) (n : Half) (s : State) :
    KeepsForms s (beginRx p dest n s).2 := by
  obtain ⟨port, hp, -, -, -, h⟩ | ⟨st, -, h⟩ := beginRx_cases p dest n s <;> rw [h]
  · exact .of_setPort hp (.of_eq rfl rfl rfl)
  · exact KeepsForms.refl s

theorem abortRx_keepsForms (p : Nat) (s : State) : KeepsForms s (abortRx p s) := by
  obtain ⟨-, h⟩ | ⟨port, hp, h⟩ := abortRx_cases p s <;> rw [h]
  · exact KeepsForms.refl s
  · exact .of_setPort hp (.of_eq rfl rfl rfl)

/-! ### Instructions -/

/-- A host operation with a port operand keeps the forms where it does on its port. -/
theorem keepsForms_of_onPort {p : Byte} {k : Port → Result} (h : foreground s (onPort p s k) = .next t)
    (hk : ∀ port, s.ports[p.toNat]? = some port → k port = .next t → KeepsForms s t) : KeepsForms s t := by
  obtain ⟨-, h⟩ := foreground_next _ _ _ h
  obtain ⟨-, hnone⟩ | ⟨port, hp, hsome⟩ := onPort_cases p s k
  · cases hnone.symm.trans h
    exact KeepsForms.refl s
  · exact hk port hp (hsome.symm.trans h)

theorem execPortInit_keepsForms {p : Byte} (h : execPortInit p s = .next t) : KeepsForms s t := by
  refine keepsForms_of_onPort h fun port hp hk => ?_
  split at hk
  · cases hk
  · split at hk <;> cases hk
    exact KeepsForms.of_setPort (port' := port.bringUp) hp (.of_eq rfl rfl rfl)

theorem execBeginTx_keepsForms {p : Byte} {src : Nat} {n : Half} (h : execBeginTx p src n s = .next t) :
    KeepsForms s t := by
  refine keepsForms_of_onPort h fun port _ hk => ?_
  split at hk
  · cases hk
    exact KeepsForms.refl s
  · split at hk
    · split at hk <;> cases hk
      exact beginTx_keepsForms _ _ s
    · cases hk
      exact KeepsForms.refl s

theorem execBeginRx_keepsForms {p : Byte} {dst : Nat} {n : Half} (h : execBeginRx p dst n s = .next t) :
    KeepsForms s t := by
  obtain ⟨-, h⟩ := foreground_next _ _ _ h
  cases h
  exact beginRx_keepsForms _ _ _ s

theorem execAbortRx_keepsForms {p : Byte} (h : execAbortRx p s = .next t) : KeepsForms s t := by
  refine keepsForms_of_onPort h fun port _ hk => ?_
  cases hk
  exact abortRx_keepsForms _ s

theorem execIrqTxe_keepsForms {p : Byte} (h : execIrqTxe p s = .next t) : KeepsForms s t := by
  obtain ⟨hnot, -⟩ | ⟨port, hp, -, harm⟩ := takeInterrupt_cases p s Port.pendingTxe _
  · cases hnot.symm.trans h
    exact KeepsForms.refl s
  · replace h := harm.symm.trans h
    split at h <;> cases h
    exact .of_setPort hp (port.handOver_keepsForms _)

theorem execIrqTc_keepsForms {p : Byte} (h : execIrqTc p s = .next t) : KeepsForms s t := by
  obtain ⟨hnot, -⟩ | ⟨port, hp, -, harm⟩ := takeInterrupt_cases p s Port.pendingTc _
  · cases hnot.symm.trans h
    exact KeepsForms.refl s
  · cases harm.symm.trans h
    exact .of_setPort hp (.of_eq rfl rfl rfl)

theorem execIrqRxne_keepsForms {p : Byte} (h : execIrqRxne p s = .next t) : KeepsForms s t := by
  obtain ⟨hnot, -⟩ | ⟨port, hp, -, harm⟩ := takeInterrupt_cases p s Port.pendingRxne _
  · cases hnot.symm.trans h
    exact KeepsForms.refl s
  · replace h := harm.symm.trans h
    split at h
    · cases h
      exact .of_setPort hp (.of_eq rfl rfl rfl)
    · split at h
      · rename_i u hu
        cases h
        have hp' : u.ports[p.toNat]? = some port := by rw [writeByte_ports hu, hp]
        exact (writeByte_keepsForms hu).trans (.of_setPort hp' port.countRx_keepsForms)
      · cases h

theorem deviceError_keepsForms {p : Nat} {port : Port} (hp : s.ports[p]? = some port) :
    KeepsForms s (deviceError p port s) :=
  KeepsForms.of_setPort (port' := { port with dev := port.dev.answer _ }) hp (.of_eq rfl rfl rfl)

theorem execRd_keepsForms {reg len : Byte} (h : execRd reg len s = .next t) : KeepsForms s t := by
  unfold execRd at h
  split at h
  · cases h
  · rename_i port hp
    split at h <;> cases h
    · exact deviceError_keepsForms hp
    · exact .of_setPort hp (.of_eq rfl rfl rfl)

theorem execWr_keepsForms {reg len : Byte} {payload : List Byte} (h : execWr reg len payload s = .next t) :
    KeepsForms s t := by
  unfold execWr at h
  split at h
  · cases h
  · rename_i port hp
    split at h
    · cases h
      exact deviceError_keepsForms hp
    · split at h <;> cases h
      · exact deviceError_keepsForms hp
      · rename_i d hwrite
        exact .of_setPort hp ⟨id, fun hregs => Device.writeRegs_wf (d' := d) hwrite hregs⟩

/-- Only the transport operations, the arms, TICK and the device's frames touch a port; the others move the sequencers. -/
theorem exec_keepsForms {i : Instr} (h : exec i s = .next t) : KeepsForms s t := by
  cases i with
  | portInit => exact execPortInit_keepsForms h
  | beginTx => exact execBeginTx_keepsForms h
  | beginRx => exact execBeginRx_keepsForms h
  | abortRx => exact execAbortRx_keepsForms h
  | txStatus | rxStatus =>
    refine keepsForms_of_onPort h fun port _ hk => ?_
    cases hk
    exact KeepsForms.refl s
  | computeTimeout | delay =>
    obtain ⟨-, h⟩ := foreground_next _ _ _ h
    split at h <;> cases h <;> exact KeepsForms.refl s
  | readReg =>
    obtain ⟨-, h⟩ := foreground_next _ _ _ h
    cases h
    exact (issueRead_sequencerOnly _ _ _ _ _ s.started).keepsForms
  | writeReg =>
    obtain ⟨-, h⟩ := foreground_next _ _ _ h
    cases h
    exact (issueWrite_sequencerOnly _ _ _ _ _ s.started).keepsForms
  | selectPage | getMode | setMode | ensureConfig | restoreMode | settingsWrite =>
    obtain ⟨-, h⟩ := foreground_next _ _ _ h
    cases h
    exact (issuePass_sequencerOnly _ _ _ _ s.started).keepsForms
  | irqTxe => exact execIrqTxe_keepsForms h
  | irqTc => exact execIrqTc_keepsForms h
  | irqRxne => exact execIrqRxne_keepsForms h
  | tick => cases h; exact .of_ports_map (f := Port.devTick) (fun _ => .of_eq rfl rfl rfl) rfl rfl rfl
  | rd => exact execRd_keepsForms h
  | wr => exact execWr_keepsForms h
  | rsp | rspErr => cases h; exact (evaluateHeader_sequencerOnly _ _ s).keepsForms

/-! ### FG's turn -/

theorem frpCompose_keepsForms (h : frpCompose s = .next t) : KeepsForms s t := by
  unfold frpCompose at h
  split at h
  · cases h
  · rename_i bytes _
    have hbegin := beginTx_keepsForms s.frp.port.toNat bytes s
    split at h <;> cases h
    all_goals
      rename_i hcall
      rw [hcall] at hbegin
      exact hbegin

theorem frpTransmitting_keepsForms (h : frpTransmitting s = .next t) : KeepsForms s t := by
  unfold frpTransmitting at h
  split at h
  · cases h
  · split at h <;> cases h <;> exact KeepsForms.refl s

theorem frpArmReceive_keepsForms (h : frpArmReceive s = .next t) : KeepsForms s t := by
  unfold frpArmReceive at h
  have hbegin := beginRx_keepsForms s.frp.port.toNat s.frp.dest (BitVec.ofNat 16 s.frp.responseCount) s
  split at h <;> cases h
  all_goals
    rename_i hcall
    rw [hcall] at hbegin
    exact hbegin

theorem frpStartupDelay_keepsForms (h : frpStartupDelay s = .next t) : KeepsForms s t := by
  unfold frpStartupDelay at h
  split at h
  · cases h
    exact KeepsForms.refl s
  · split at h
    · cases h
    · split at h <;> cases h
      exact KeepsForms.refl s

theorem frpAwaitingResponse_keepsForms (h : frpAwaitingResponse s = .next t) : KeepsForms s t := by
  unfold frpAwaitingResponse at h
  split at h
  · cases h
  · split at h
    · cases h
      exact KeepsForms.refl s
    · split at h <;> cases h
      · exact KeepsForms.refl s
      · exact abortRx_keepsForms _ s

theorem frpEvaluate_keepsForms (h : frpEvaluate s = .next t) : KeepsForms s t := by
  unfold frpEvaluate at h
  split at h
  · cases h
  · split at h
    · exact exec_keepsForms h
    · cases h

/-- Returning a status moves the sequencers only. -/
theorem deliver_keepsForms {stack : List Frame} {st : Status} {v : ReturnValue} (h : deliver stack st v s = .next t) :
    KeepsForms s t := (deliver_sequencerOnly stack st v s t h).keepsForms

theorem frpStep_keepsForms {callers : List Frame} (h : frpStep callers s = .next t) : KeepsForms s t := by
  unfold frpStep at h
  split at h
  · cases h
  · exact frpCompose_keepsForms h
  · exact frpTransmitting_keepsForms h
  · exact frpArmReceive_keepsForms h
  · exact frpStartupDelay_keepsForms h
  · exact frpAwaitingResponse_keepsForms h
  · exact frpEvaluate_keepsForms h
  · exact deliver_keepsForms (s := s.setFrpPhase .idle) h

theorem fgTurn_keepsForms (h : fgTurn s = .next t) : KeepsForms s t := by
  unfold fgTurn at h
  split at h
  · obtain rfl | ⟨i, rest, -, hexec⟩ := fetchHost_cases h
    · exact KeepsForms.refl t
    · exact exec_keepsForms (s := { s with commands := rest }) hexec
  · unfold delayStep at h
    split at h
    · exact deliver_keepsForms h
    · cases h
      exact KeepsForms.refl s
  · exact frpStep_keepsForms h
  · exact (dcmStep_sequencerOnly h).keepsForms
  all_goals cases h

/-! ### The environment's moves -/

theorem envStep_keepsForms (p : Nat) {f : Port → Port} (hf : ∀ port : Port, port.KeepsForms (f port)) :
    KeepsForms s (envStep p f s) := by
  obtain h | ⟨port, hp, h⟩ := envStep_cases p f s <;> rw [h]
  · exact KeepsForms.refl s
  · exact .of_setPort hp (hf port)

theorem runFrame_keepsForms {p : Nat} {cmd : List Byte} {fault : Option (Fin 9)}
    (h : runFrame p cmd fault s = .next t) : KeepsForms s t := by
  unfold runFrame at h
  split at h
  · cases h
    exact KeepsForms.refl s
  · rename_i port hp
    split at h
    · cases h
      exact .of_setPort hp (.of_eq rfl rfl rfl)
    · split at h
      · exact exec_keepsForms (s := { s with activePort := p }) h
      · cases h
        exact deviceError_keepsForms hp

theorem devTake_keepsForms {p : Nat} {fault : Option (Fin 9)} (h : devTake p fault s = .next t) : KeepsForms s t := by
  unfold devTake at h
  split at h
  · cases h
    exact KeepsForms.refl s
  · rename_i port hp
    split at h
    · cases h
      exact KeepsForms.refl s
    · rename_i line _
      split at h
      · cases h
        exact .of_setPort hp (.of_eq rfl rfl rfl)
      · split at h
        · have htaken : KeepsForms s (s.setPort p (port.frameTaken line)) := .of_setPort hp (.of_eq rfl rfl rfl)
          exact htaken.trans (runFrame_keepsForms h)
        · cases h
          exact .of_setPort hp (.of_eq rfl rfl rfl)

theorem configure_keepsForms (p : Nat) (line : LineConfig) : KeepsForms s (configure p line s) := by
  unfold configure
  split
  · rename_i port _ hp
    split
    · exact .of_setPort hp (.of_eq rfl rfl rfl)
    · exact KeepsForms.refl s
  · exact KeepsForms.refl s

theorem hostStore_keepsForms {a : Nat} {b : Byte} (h : hostStore a b s = .next t) : KeepsForms s t := by
  unfold hostStore at h
  split at h <;> cases h
  exact writeByte_keepsForms ‹_›

/-! ### A step -/

theorem runMove_keepsForms {m : Move} (h : runMove m s = .next t) : KeepsForms s t := by
  cases m with
  | fg => exact fgTurn_keepsForms h
  | event =>
    obtain ⟨i, tail, -, hexec⟩ := fireEvent_cases h
    exact exec_keepsForms hexec
  | txLoad p => cases h; exact envStep_keepsForms p Port.txLoad_keepsForms
  | txShiftOut p => cases h; exact envStep_keepsForms p Port.txShiftOut_keepsForms
  | rxArrive p => cases h; exact envStep_keepsForms p fun port => port.rxArrive_keepsForms _ _ _ _
  | devSend p => cases h; exact envStep_keepsForms p fun port => port.devSend_keepsForms _ _ _
  | devTake => exact devTake_keepsForms h
  | hostStore => exact hostStore_keepsForms h
  | configure => cases h; exact configure_keepsForms _ _
  | resetBlock => cases h; exact .of_ports_map (f := Port.resetBlock s.params) (fun _ => .of_eq rfl rfl rfl) rfl rfl rfl

end

/-- Settles O58, move by move; consuming a move changes no form. -/
theorem stepKeepsForms : Obligations.StepKeepsForms := by
  intro s t h
  cases hmoves : s.moves with
  | nil => exact fgTurn_keepsForms ((step_of_moves_nil hmoves).symm.trans h)
  | cons m ms => exact runMove_keepsForms (s := { s with moves := ms }) ((step_of_moves_cons hmoves).symm.trans h)

end Sys2Proof.Machine
end

section
/-! SUPPORT. The events against each other (41_transport_isr.md, 60_exceptions.md): an event that is not pending runs
nothing (R245), and a receive arm and a transmit arm commute (R250). A transmit arm is a change of one port; the receive
arm is a store in memory and a change of one port; and neither arm looks at what the other writes. -/

namespace Sys2Proof.Machine

/-! ### TICK, and an event that is not pending -/

/-- Settles O17: TICK has no case; the DevTick it makes of each port is written out. -/
theorem tickCounts : Obligations.TickCounts := by
  intro s
  rfl

theorem takeInterrupt_not_pending {s : State} {p : Byte} {pending : Port → Bool} {arm : Port → Result}
    (h : ∀ port, s.ports[p.toNat]? = some port → pending port = false) : takeInterrupt p s pending arm = .next s := by
  obtain ⟨hnext, -⟩ | ⟨port, hport, hpending, -⟩ := takeInterrupt_cases p s pending arm
  · exact hnext
  · exact absurd hpending (Bool.eq_false_iff.mp (h port hport))

/-- Settles O22: each of the three arms is taken under exactly the guard of R245. -/
theorem notPendingRunsNothing : Obligations.NotPendingRunsNothing := by
  intro s p
  exact ⟨takeInterrupt_not_pending, takeInterrupt_not_pending, takeInterrupt_not_pending⟩

/-! ### A change of one port -/

/-- Port `q` changed by `f`, where there is one. -/
def State.modifyPort (s : State) (q : Nat) (f : Port → Port) : State := { s with ports := s.ports.modify q f }

section
variable {s : State} {p q : Nat} {f g : Port → Port} {port : Port}

theorem State.setPort_eq_modifyPort (h : s.ports[q]? = some port) : s.setPort q (f port) = s.modifyPort q f := by
  simp [State.setPort, State.modifyPort, List.modify_eq_set_getElem?, h]

theorem State.modifyPort_getElem? (s : State) (p q : Nat) (f : Port → Port) :
    (s.modifyPort q f).ports[p]? = s.ports[p]?.map fun port => if q = p then f port else port :=
  List.getElem?_modify f q s.ports p

theorem State.modifyPort_not_pending {pending : Port → Bool}
    (h : ∀ port, s.ports[q]? = some port → pending port = false) :
    (s.modifyPort q fun port => if pending port then f port else port) = s := by
  cases hq : s.ports[q]? with
  | none => rw [State.modifyPort, List.modify_eq_self (List.getElem?_eq_none_iff.mp hq)]
  | some port => rw [← State.setPort_eq_modifyPort hq, if_neg (Bool.eq_false_iff.mp (h port hq)), State.setPort_self hq]

/-- Changes of two ports commute, and so do two of one port that commute on it. -/
theorem State.modifyPort_comm (s : State) (p q : Nat) (h : ∀ port, f (g port) = g (f port)) :
    (s.modifyPort p g).modifyPort q f = (s.modifyPort q f).modifyPort p g := by
  have hports : (s.ports.modify p g).modify q f = (s.ports.modify q f).modify p g := by
    by_cases hpq : p = q
    · subst hpq
      rw [List.modify_modify_eq, List.modify_modify_eq]
      exact congrArg _ (funext h)
    · exact List.modify_modify_ne g f s.ports hpq
  simp only [State.modifyPort, hports]

/-- A property of a port that `f` neither makes nor breaks holds after the change as before it. -/
theorem State.modifyPort_forall {P : Port → Prop} (h : ∀ port, P (f port) ↔ P port) :
    (∀ port, (s.modifyPort q f).ports[p]? = some port → P port) ↔ ∀ port, s.ports[p]? = some port → P port := by
  rw [State.modifyPort_getElem?]
  cases s.ports[p]? with
  | none => simp
  | some port => by_cases hqp : q = p <;> simp [hqp, h]

end

/-! ### The transmit arms as changes of a port -/

/-- The port after IRQ_TXE, pending or not; where the cursor is past the top of TXBUF, the port itself. -/
def Port.afterTxe (port : Port) : Port :=
  if port.pendingTxe then (port.tx.buf[port.tx.cur.toNat]?).elim port port.handOver else port

/-- The port after IRQ_TC, pending or not. -/
def Port.afterTc (port : Port) : Port := if port.pendingTc then port.completeTx else port

/-- IRQ_TXE, if it runs, finds its byte in TXBUF (R73). -/
def Port.TxeInside (port : Port) : Prop := port.pendingTxe = true → port.tx.cur.toNat < port.tx.buf.length

section
variable {s t : State} {p : Byte}

theorem exec_irqTxe_iff : exec (.irqTxe p) s = .next t ↔
    (∀ port, s.ports[p.toNat]? = some port → port.TxeInside) ∧ s.modifyPort p.toNat Port.afterTxe = t := by
  by_cases hnot : ∀ port, s.ports[p.toNat]? = some port → port.pendingTxe = false
  · have hexec : exec (.irqTxe p) s = .next s := takeInterrupt_not_pending hnot
    have hself : s.modifyPort p.toNat Port.afterTxe = s := State.modifyPort_not_pending hnot
    have hinside : ∀ port, s.ports[p.toNat]? = some port → port.TxeInside :=
      fun port hp hpending => absurd hpending (Bool.eq_false_iff.mp (hnot port hp))
    rw [hexec, hself, Host.Outcome.next.injEq, and_iff_right hinside]
  · obtain ⟨port, hp, hpending⟩ : ∃ port, s.ports[p.toNat]? = some port ∧ port.pendingTxe = true := by
      simpa using hnot
    have hinside : (∀ port, s.ports[p.toNat]? = some port → port.TxeInside) ↔
        port.tx.cur.toNat < port.tx.buf.length := by simp [hp, Port.TxeInside, hpending]
    rw [hinside]
    cases hb : port.tx.buf[port.tx.cur.toNat]? with
    | none =>
      have hexec : exec (.irqTxe p) s = .fault .outsideTxbuf := by
        refine (takeInterrupt_pending hp hpending).trans ?_
        simp only [hb]
      simp [hexec, Nat.not_lt.mpr (List.getElem?_eq_none_iff.mp hb)]
    | some b =>
      obtain ⟨hin, -⟩ := List.getElem?_eq_some_iff.mp hb
      have hafter : port.afterTxe = port.handOver b := by simp [Port.afterTxe, hpending, hb]
      rw [exec_irqTxe_pending hp hpending hb, ← hafter, State.setPort_eq_modifyPort hp, Host.Outcome.next.injEq,
        and_iff_right hin]

theorem exec_irqTc_eq : exec (.irqTc p) s = .next (s.modifyPort p.toNat Port.afterTc) := by
  by_cases hnot : ∀ port, s.ports[p.toNat]? = some port → port.pendingTc = false
  · have hself : s.modifyPort p.toNat Port.afterTc = s := State.modifyPort_not_pending hnot
    rw [hself]
    exact takeInterrupt_not_pending hnot
  · obtain ⟨port, hp, hpending⟩ : ∃ port, s.ports[p.toNat]? = some port ∧ port.pendingTc = true := by simpa using hnot
    have hafter : port.afterTc = port.completeTx := if_pos hpending
    rw [exec_irqTc_pending hp hpending, ← hafter, State.setPort_eq_modifyPort hp]

end

/-! ### The receive arm as a store and a change of a port -/

/-- The port after IRQ_RXNE, pending or not. -/
def Port.afterRxne (port : Port) : Port :=
  if port.pendingRxne then if port.periph.errors.any then port.dropRx else port.countRx else port

/-- The store of IRQ_RXNE on `port`: the received byte, where the arm runs and there is no line error. -/
def Port.storeReceived (port : Port) (s : State) : Except Fault State :=
  if port.pendingRxne && !port.periph.errors.any then writeByte s port.rx.dest.space port.rxAddr port.periph.rdr
  else .ok s

/-- The store of IRQ_RXNE on port `p`, which may be none. -/
def State.storeReceived (s : State) (p : Nat) : Except Fault State :=
  (s.ports[p]?).elim (.ok s) fun port => port.storeReceived s

section
variable {s t u : State} {p q : Nat} {f : Port → Port}

theorem State.storeReceived_eq {port : Port} (h : s.ports[p]? = some port) :
    s.storeReceived p = port.storeReceived s := by
  rw [State.storeReceived, h, Option.elim_some]

theorem State.storeReceived_not_pending (h : ∀ port, s.ports[p]? = some port → port.pendingRxne = false) :
    s.storeReceived p = .ok s := by
  cases hp : s.ports[p]? with
  | none => rw [State.storeReceived, hp, Option.elim_none]
  | some port => simp [State.storeReceived_eq hp, Port.storeReceived, h port hp]

theorem State.storeReceived_ports (h : s.storeReceived p = .ok u) : u.ports = s.ports := by
  cases hp : s.ports[p]? with
  | none =>
    rw [State.storeReceived, hp] at h
    cases h
    rfl
  | some port =>
    rw [State.storeReceived_eq hp, Port.storeReceived] at h
    split at h
    · exact writeByte_ports h
    · cases h
      rfl

theorem exec_irqRxne_iff {p : Byte} : exec (.irqRxne p) s = .next t ↔
    ∃ u, s.storeReceived p.toNat = .ok u ∧ u.modifyPort p.toNat Port.afterRxne = t := by
  by_cases hnot : ∀ port, s.ports[p.toNat]? = some port → port.pendingRxne = false
  · have hexec : exec (.irqRxne p) s = .next s := takeInterrupt_not_pending hnot
    have hself : s.modifyPort p.toNat Port.afterRxne = s := State.modifyPort_not_pending hnot
    simp [hexec, State.storeReceived_not_pending hnot, hself]
  · obtain ⟨port, hp, hpending⟩ : ∃ port, s.ports[p.toNat]? = some port ∧ port.pendingRxne = true := by
      simpa using hnot
    rw [State.storeReceived_eq hp]
    cases herrors : port.periph.errors.any with
    | true =>
      have hstore : port.storeReceived s = .ok s := by simp [Port.storeReceived, herrors]
      have hafter : port.afterRxne = port.dropRx := by simp [Port.afterRxne, hpending, herrors]
      rw [exec_irqRxne_error hp hpending herrors, ← hafter, State.setPort_eq_modifyPort hp, hstore]
      simp
    | false =>
      have hstore : port.storeReceived s = writeByte s port.rx.dest.space port.rxAddr port.periph.rdr := by
        simp [Port.storeReceived, hpending, herrors]
      have hafter : port.afterRxne = port.countRx := by simp [Port.afterRxne, hpending, herrors]
      rw [hstore]
      cases hwrite : writeByte s port.rx.dest.space port.rxAddr port.periph.rdr with
      | error f => simp [exec_irqRxne_faults hp hpending herrors hwrite]
      | ok u =>
        have hpu : u.ports[p.toNat]? = some port := by rw [writeByte_ports hwrite, hp]
        rw [exec_irqRxne_stored hp hpending herrors hwrite, ← hafter, State.setPort_eq_modifyPort hpu]
        simp

theorem writeByte_modifyPort (s : State) (sp : Space) (a : Nat) (b : Byte) :
    writeByte (s.modifyPort q f) sp a b = (writeByte s sp a b).map (·.modifyPort q f) := by
  have htop : (s.modifyPort q f).dmemTop = s.dmemTop := rfl
  cases sp with
  | dmem =>
    simp only [writeByte, htop]
    split <;> rfl
  | scr =>
    simp only [writeByte]
    split <;> rfl

theorem Port.storeReceived_modifyPort (port : Port) (s : State) :
    port.storeReceived (s.modifyPort q f) = (port.storeReceived s).map (·.modifyPort q f) := by
  unfold Port.storeReceived
  split
  · exact writeByte_modifyPort s _ _ _
  · rfl

/-- A change that the store does not look at can come before it or after it. -/
theorem State.storeReceived_modifyPort_iff (h : ∀ port s, (f port).storeReceived s = port.storeReceived s) :
    (s.modifyPort q f).storeReceived p = .ok t ↔ ∃ u, s.storeReceived p = .ok u ∧ u.modifyPort q f = t := by
  have hmap : (s.modifyPort q f).storeReceived p = (s.storeReceived p).map (·.modifyPort q f) := by
    rw [State.storeReceived, State.storeReceived, State.modifyPort_getElem?]
    cases s.ports[p]? with
    | none => rfl
    | some port => by_cases hqp : q = p <;> simp [hqp, h, Port.storeReceived_modifyPort]
  rw [hmap]
  cases s.storeReceived p <;> simp [Except.map]

end

/-! ### What an arm looks at -/

/-- What the receive arm looks at is the same: the receive half, and the received byte with its flags. -/
structure Port.SameReceive (port port' : Port) : Prop where
  rx : port'.rx = port.rx
  rxne : port'.periph.rxne = port.periph.rxne
  rdr : port'.periph.rdr = port.periph.rdr
  errors : port'.periph.errors = port.periph.errors

/-- What the transmit arms look at is the same: the transmit half and the two transmit flags. -/
structure Port.SameTransmit (port port' : Port) : Prop where
  tx : port'.tx = port.tx
  txe : port'.periph.txe = port.periph.txe
  tc : port'.periph.tc = port.periph.tc

section
variable {port port' : Port}

theorem Port.SameReceive.pendingRxne (h : port.SameReceive port') : port'.pendingRxne = port.pendingRxne := by
  rw [Port.pendingRxne, h.rx, h.rxne, Port.pendingRxne]

theorem Port.SameReceive.storeReceived (h : port.SameReceive port') (s : State) :
    port'.storeReceived s = port.storeReceived s := by
  simp only [Port.storeReceived, Port.rxAddr, h.pendingRxne, h.rx, h.rdr, h.errors]

/-- A change that the receive arm does not look at commutes with it if it does with each of its two ends. -/
theorem Port.SameReceive.afterRxne_comm {g : Port → Port} (h : port.SameReceive (g port))
    (hdrop : g port.dropRx = (g port).dropRx) (hcount : g port.countRx = (g port).countRx) :
    g port.afterRxne = (g port).afterRxne := by
  unfold Port.afterRxne
  rw [h.pendingRxne, h.errors]
  split
  · split
    · exact hdrop
    · exact hcount
  · rfl

theorem Port.SameTransmit.pendingTxe (h : port.SameTransmit port') : port'.pendingTxe = port.pendingTxe := by
  rw [Port.pendingTxe, h.tx, h.txe, Port.pendingTxe]

theorem Port.SameTransmit.pendingTc (h : port.SameTransmit port') : port'.pendingTc = port.pendingTc := by
  rw [Port.pendingTc, h.tx, h.tc, Port.pendingTc]

end

section
variable (port : Port) (b : Byte)

theorem Port.handOver_sameReceive : port.SameReceive (port.handOver b) := by
  unfold Port.handOver
  split <;> exact ⟨rfl, rfl, rfl, rfl⟩

theorem Port.completeTx_sameReceive : port.SameReceive port.completeTx := ⟨rfl, rfl, rfl, rfl⟩

theorem Port.countRx_sameTransmit : port.SameTransmit port.countRx := by
  unfold Port.countRx
  split <;> exact ⟨rfl, rfl, rfl⟩

theorem Port.afterRxne_sameTransmit : port.SameTransmit port.afterRxne := by
  unfold Port.afterRxne
  split
  · split
    · exact ⟨rfl, rfl, rfl⟩
    · exact port.countRx_sameTransmit
  · exact ⟨rfl, rfl, rfl⟩

/-! ### Two arms on one port -/

theorem Port.handOver_dropRx : port.dropRx.handOver b = (port.handOver b).dropRx := by
  by_cases hlast : port.tx.cur + 1 = port.tx.len <;>
    simp only [Port.handOver, Port.dropRx, periphWriteData, periphReadStatusData, hlast, if_true, if_false]

theorem Port.handOver_countRx : port.countRx.handOver b = (port.handOver b).countRx := by
  by_cases htx : port.tx.cur + 1 = port.tx.len <;> by_cases hrx : port.rx.cur + 1 = port.rx.len <;>
    simp only [Port.handOver, Port.countRx, periphWriteData, periphReadStatusData, htx, hrx, if_true, if_false]

theorem Port.completeTx_countRx : port.countRx.completeTx = port.completeTx.countRx := by
  by_cases hrx : port.rx.cur + 1 = port.rx.len <;>
    simp only [Port.completeTx, Port.countRx, periphClearTc, periphReadStatusData, hrx, if_true, if_false]

end

/-- A change `f` of a port, possible where `Inside` holds, commutes with the receive arm. -/
structure CommutesWithRxne (Inside : Port → Prop) (f : Port → Port) : Prop where
  inside : ∀ port, Inside port.afterRxne ↔ Inside port
  store : ∀ port s, (f port).storeReceived s = port.storeReceived s
  after : ∀ port, f port.afterRxne = (f port).afterRxne

theorem Port.afterTxe_commutes : CommutesWithRxne Port.TxeInside Port.afterTxe where
  inside port := by
    rw [Port.TxeInside, port.afterRxne_sameTransmit.pendingTxe, port.afterRxne_sameTransmit.tx, Port.TxeInside]
  store port s := by
    unfold Port.afterTxe
    split
    · cases port.tx.buf[port.tx.cur.toNat]? with
      | none => rfl
      | some b => exact (port.handOver_sameReceive b).storeReceived s
    · rfl
  after port := by
    unfold Port.afterTxe
    rw [port.afterRxne_sameTransmit.pendingTxe, port.afterRxne_sameTransmit.tx]
    split
    · cases port.tx.buf[port.tx.cur.toNat]? with
      | none => rfl
      | some b =>
        exact (port.handOver_sameReceive b).afterRxne_comm (g := (·.handOver b)) (port.handOver_dropRx b)
          (port.handOver_countRx b)
    · rfl

theorem Port.afterTc_commutes : CommutesWithRxne (fun _ => True) Port.afterTc where
  inside _ := Iff.rfl
  store port s := by
    unfold Port.afterTc
    split
    · exact port.completeTx_sameReceive.storeReceived s
    · rfl
  after port := by
    unfold Port.afterTc
    rw [port.afterRxne_sameTransmit.pendingTc]
    split
    · exact port.completeTx_sameReceive.afterRxne_comm rfl port.completeTx_countRx
    · rfl

/-! ### The two orders -/

/-- An arm that is a change of a port commutes with the receive arm on any port if the change does on its own. -/
theorem exec_irqRxne_comm {i : Instr} {q : Nat} {Inside : Port → Prop} {f : Port → Port} (h : CommutesWithRxne Inside f)
    (hexec : ∀ s t, exec i s = .next t ↔
      (∀ port, s.ports[q]? = some port → Inside port) ∧ s.modifyPort q f = t) (s u : State) (p : Byte) :
    (∃ t, exec (.irqRxne p) s = .next t ∧ exec i t = .next u) ↔
      ∃ t, exec i s = .next t ∧ exec (.irqRxne p) t = .next u := by
  have hinside : ∀ {m}, s.storeReceived p.toNat = .ok m →
      ((∀ port, (m.modifyPort p.toNat Port.afterRxne).ports[q]? = some port → Inside port) ↔
        ∀ port, s.ports[q]? = some port → Inside port) := by
    intro m hm
    rw [State.modifyPort_forall h.inside, State.storeReceived_ports hm]
  simp only [exec_irqRxne_iff, hexec]
  constructor
  · rintro ⟨_, ⟨m, hm, rfl⟩, hin, rfl⟩
    exact ⟨_, ⟨(hinside hm).mp hin, rfl⟩, _, (State.storeReceived_modifyPort_iff h.store).mpr ⟨m, hm, rfl⟩,
      (m.modifyPort_comm p.toNat q h.after).symm⟩
  · rintro ⟨_, ⟨hin, rfl⟩, _, hstore, rfl⟩
    obtain ⟨m, hm, rfl⟩ := (State.storeReceived_modifyPort_iff h.store).mp hstore
    exact ⟨_, ⟨m, hm, rfl⟩, (hinside hm).mpr hin, m.modifyPort_comm p.toNat q h.after⟩

/-- Settles O24: each transmit arm is a change of a port that commutes with the receive arm. -/
theorem armOrderUnobservable : Obligations.ArmOrderUnobservable := by
  intro s u p q i hi
  simp only [List.mem_cons, List.not_mem_nil, or_false] at hi
  obtain rfl | rfl := hi
  · exact exec_irqRxne_comm Port.afterTxe_commutes (fun _ _ => exec_irqTxe_iff) s u p
  · exact exec_irqRxne_comm Port.afterTc_commutes (q := q.toNat) (fun s t => by simp [exec_irqTc_eq]) s u p

end Sys2Proof.Machine
end

section
/-! SUPPORT. A port operand that names no port (60_exceptions.md, R242): which checks find it, and how the status of a
pass that was rejected at its issue is passed up to the host, whatever sequence called the pass. -/

namespace Sys2Proof.Machine

/-! ### The checks of the port -/

section
variable {s : State} {p : Byte} (hp : s.ports.length ≤ p.toNat)
include hp

theorem State.hasPort_eq_false : s.hasPort p = false := decide_eq_false (Nat.not_lt.mpr hp)

theorem frpValid_noPort (len : Byte) (buf : FrpBuf) : frpValid s p len buf = false := by
  rw [frpValid, State.hasPort_eq_false hp, Bool.false_and, Bool.false_and]

theorem passValid_noPort (k : Pass) (target : Byte) : passValid s k p target = false := by
  simp only [passValid, State.hasPort_eq_false hp, Bool.false_and]

/-- BEGIN_RX finds the missing port in its internal form. -/
theorem exec_beginRx_noPort (hfg : s.fg = []) (dst : Nat) (n : Half) :
    exec (.beginRx p dst n) s = .next { s with ret := some ⟨.invalidParam, .none⟩ } := by
  have hnone : s.ports[p.toNat]? = none := List.getElem?_eq_none_iff.mpr hp
  have hbegin : beginRx p.toNat ⟨.dmem, dst⟩ n s = (.invalidParam, s) := by simp only [beginRx, hnone]
  refine (foreground_idle s _ hfg).trans ?_
  rw [hbegin, State.returned_of_idle hfg]

end

/-! ### A failed status on its way to the host -/

section
variable {s : State} {st : Status} {callers : List Frame} (hst : st ≠ .success)
include hst

theorem deliver_settingsOrNone_failed {stage : SettingsStage} (h : settingsOrNone stage callers = true) :
    deliver callers st .none s = .next (s.returned st .none) := by
  match callers, h with
  | [], _ => rfl
  | .settings stage' .. :: rest, h =>
    obtain ⟨-, hrest⟩ : stage' = stage ∧ rest = [] := by simpa [settingsOrNone] using h
    rw [deliver_settings_failed stage' hst, hrest, deliver]

/-- Every sequence that calls a pass passes a status that is not Success up to the host unchanged (R170, R203). -/
theorem deliver_passCallers_failed {k : Pass} (h : callersOk k callers = true) :
    deliver callers st .none s = .next (s.returned st .none) := by
  match callers, h with
  | [], _ => rfl
  | .ensure .reading :: rest, h =>
    obtain ⟨-, hrest⟩ : k = .getMode ∧ settingsOrNone .ensuring rest = true := by simpa [callersOk] using h
    rw [deliver_ensure_failed .reading hst, deliver_settingsOrNone_failed hst hrest]
  | .ensure .switching :: rest, h =>
    obtain ⟨-, hrest⟩ : k = .setMode ∧ settingsOrNone .ensuring rest = true := by simpa [callersOk] using h
    rw [deliver_ensure_failed .switching hst, deliver_settingsOrNone_failed hst hrest]
  | .restore :: rest, h =>
    obtain ⟨-, hrest⟩ : k = .setMode ∧ settingsOrNone .restoring rest = true := by simpa [callersOk] using h
    rw [deliver_restore, deliver_settingsOrNone_failed hst hrest]
  | .settings stage .. :: rest, h =>
    obtain ⟨-, -, hrest⟩ : k = .selectPage ∧ stage = .paging ∧ rest = [] := by simpa [callersOk, and_assoc] using h
    rw [deliver_settings_failed stage hst, hrest, deliver]

theorem fgTurn_pass_failed {k : Pass} (hcallers : callersOk k callers = true) (hfg : s.fg = .dcm k :: callers)
    (hphase : s.dcm.phase = .done st) : fgTurn s = .next ((s.setDcmPhase .idle).returned st .none) := by
  have hvalue : passValue k st s = .none := by simp [passValue_eq, hst]
  rw [fgTurn_dcm_done hfg hphase, hvalue, deliver_passCallers_failed hst hcallers]

end

/-! ### The issue of a pass -/

/-- Whichever operation issues the pass, the missing port is returned at FG's next turn. -/
theorem issuePass_noPort {s : State} {k : Pass} {p : Byte} {callers : List Frame} (hcallers : callersOk k callers = true)
    (hfg : s.fg = []) (hp : s.ports.length ≤ p.toNat) (target : Byte) :
    ∃ t, foreground s (.next (issuePass k p target callers s.started)) = .next t ∧
      fgTurn t = .next { s with dcm := { s.dcm with phase := .idle }, ret := some ⟨.invalidParam, .none⟩ } := by
  refine ⟨_, foreground_idle s _ hfg, ?_⟩
  rw [issuePass_illegal (passValid_noPort (s := s.started) hp k target),
    fgTurn_pass_failed (by decide) hcallers rfl rfl, State.returned, ← hfg]
  rfl

/-- Settles O14: the transport operations check the port at once; the others issue a sequencer that has failed already. -/
theorem badPortRejected : Obligations.BadPortRejected := by
  intro s p x y z a n hfg hp
  simp only [List.forall_mem_cons, List.not_mem_nil, false_implies, implies_true, and_true]
  refine ⟨⟨?_, ?_, ?_, ?_, ?_, ?_⟩, ⟨?_, ?_⟩, ?_, ?_, ?_, ?_, ?_, ?_⟩
  · exact foreground_onPort_none hfg hp
  · exact foreground_onPort_none hfg hp
  · exact exec_beginRx_noPort hp hfg a n
  · exact foreground_onPort_none hfg hp
  · exact foreground_onPort_none hfg hp
  · exact foreground_onPort_none hfg hp
  · exact ⟨_, (exec_readReg_idle hfg).trans (congrArg _ (issueRead_illegal (frpValid_noPort hp y (.dmem a)))),
      fgTurn_frp_rejected hfg⟩
  · exact ⟨_, (exec_writeReg_idle hfg).trans (congrArg _ (issueWrite_illegal (frpValid_noPort hp y (.dmem a)))),
      fgTurn_frp_rejected hfg⟩
  · exact issuePass_noPort (k := .selectPage) (callers := []) rfl hfg hp x
  · exact issuePass_noPort rfl hfg hp 0
  · exact issuePass_noPort rfl hfg hp x
  · exact issuePass_noPort rfl hfg hp 0
  · exact issuePass_noPort rfl hfg hp x
  · exact issuePass_noPort rfl hfg hp 0

end Sys2Proof.Machine
end
